-- ==== Sys2Proof/Word.lean ====
section
/-! DEFINITION. The byte and word types (00_scope.md R8, R9). -/

namespace Sys2Proof

/-- A byte is 8 bits (R8). -/
abbrev Byte := BitVec 8

/-- A length field: 2 bytes (R8). -/
abbrev Half := BitVec 16

/-- A marker, packet id, integrity code or checksum: 4 bytes (R8). -/
abbrev Word := BitVec 32

/-- `Bytes` of R9: a finite list of bytes, first received first. -/
abbrev Bytes := List Byte

end Sys2Proof
end

