-- ==== Sys2Proof/Machine/Wire.lean ====
section
/-! DEFINITION. The wire constants (30_encoding.md R70), little-endian reads and writes and slices (00_scope.md R9;
20_memory.md R53). -/

namespace Sys2Proof.Wire

/-- HEADER_START, wire bytes `0C 0B 0A 09` (R70; 20_memory.md R54). -/
def headerStart : Word := 0x090A0B0C#32

/-- HEADER_END, wire bytes `10 0F 0E 0D` (R70). -/
def headerEnd : Word := 0x0D0E0F10#32

/-- CHUNK_START, wire bytes `04 03 02 01` (R70). -/
def chunkStart : Word := 0x01020304#32

/-- CHUNK_END, wire bytes `08 07 06 05` (R70). -/
def chunkEnd : Word := 0x05060708#32

/-- ACK_START, wire bytes `1C 1B 1A 19` (R70). -/
def ackStart : Word := 0x191A1B1C#32

/-- ACK_END, wire bytes `20 1F 1E 1D` (R70). -/
def ackEnd : Word := 0x1D1E1F20#32

/-- The four frame markers, in the priority order of R72. -/
def frameMarkers : List Word := [headerStart, headerEnd, chunkStart, chunkEnd]

/-- The newline byte of the diagnostic channel (30_encoding.md R81). -/
def newline : Byte := 0x0A#8

/-- `b[i]` of R9; the rules read it only where `i` is in range. -/
def byteAt (b : Bytes) (i : Nat) : Byte := b.getD i 0#8

/-- `le16(b, o)` of R9. -/
def le16 (b : Bytes) (o : Nat) : Half := byteAt b (o + 1) ++ byteAt b o

/-- `le32(b, o)` of R9. -/
def le32 (b : Bytes) (o : Nat) : Word :=
  byteAt b (o + 3) ++ (byteAt b (o + 2) ++ (byteAt b (o + 1) ++ byteAt b o))

/-- `u16le(v)` of R9. -/
def u16le (v : Half) : Bytes := [v.extractLsb' 0 8, v.extractLsb' 8 8]

/-- `u32le(v)` of R9. -/
def u32le (v : Word) : Bytes :=
  [v.extractLsb' 0 8, v.extractLsb' 8 8, v.extractLsb' 16 8, v.extractLsb' 24 8]

/-- The half-open slice `b[i..j)` of R9. -/
def slice (b : Bytes) (i j : Nat) : Bytes := (b.drop i).take (j - i)

/-- The `n` lowest bytes of a number, least significant first: the bytes the hardware stores for an opcode-table
number. -/
def bytesOfNat : Nat → Nat → Bytes
  | 0, _ => []
  | n + 1, w => BitVec.ofNat 8 w :: bytesOfNat n (w / 256)

end Sys2Proof.Wire
end

