-- ==== Sys2Proof/Syntax.lean ====
section
/-! DEFINITION. The operations of the engine: the five lookahead decisions (30_encoding.md R72) and the transmit frame
(30_encoding.md R79), one constructor per row of spec/opcode_table.json. -/

namespace Sys2Proof

/-- The engine's operations. -/
inductive Instr where
  /-- `OP_HS`, HEADER_START (42_framing.md R132). -/
  | opHs
  /-- `OP_HE`, HEADER_END (42_framing.md R133). -/
  | opHe
  /-- `OP_CS`, CHUNK_START (42_framing.md R134). -/
  | opCs
  /-- `OP_CE`, CHUNK_END (42_framing.md R135). -/
  | opCe
  /-- `OP_DATA` (42_framing.md R136): `x` is `buf[0]`, the byte it consumes; `ahead` is the rest of the window, looked
  at and not consumed (20_memory.md R56). -/
  | opData (x : Byte) (ahead : BitVec 24)
  /-- `ACK_FRAME` (45_ack.md R191): the acknowledgement of `code` written to the TX direction. -/
  | ackFrame (code : Word)
  deriving DecidableEq, Repr

/-- The direction of the transport an encoding belongs to: lookahead windows are read from RX, the ACK frame is written
to TX (30_encoding.md R80). -/
inductive Direction where
  | rx
  | tx
  deriving DecidableEq, Repr

/-- Where an operation's encoding is found. -/
def Instr.direction : Instr → Direction
  | .opHs | .opHe | .opCs | .opCe | .opData _ _ => .rx
  | .ackFrame _ => .tx

/-- How many bytes of its stream an operation uses up: 4 for a marker, 1 for a data byte (30_encoding.md R72), and the
whole 12-byte frame for an ACK (30_encoding.md R79). -/
def Instr.consumes : Instr → Nat
  | .opHs | .opHe | .opCs | .opCe => 4
  | .opData _ _ => 1
  | .ackFrame _ => 12

end Sys2Proof
end

