-- ==== Sys2Proof/WellFormed.lean ====
section
/-! DEFINITION. Which terms of `Instr` are operations of the engine. -/

namespace Sys2Proof

/-- An `OP_DATA` window is none of the four marker words (30_encoding.md R72, priority 5). Every other term stands for
an operation as it is. -/
def Instr.wf : Instr → Bool
  | .opData x ahead => decide ((ahead ++ x : Word) ∉ Wire.frameMarkers)
  | .opHs | .opHe | .opCs | .opCe | .ackFrame _ => true

end Sys2Proof
end

