-- ==== Sys2Proof/Decode.lean ====
section
/-! DEFINITION. The lookahead decode (30_encoding.md R72), the reading of the transmit frame (30_encoding.md R79) and
the encoder written from the same tables. -/

namespace Sys2Proof

/-- Why bytes are not an operation. -/
inductive DecodeError where
  /-- Fewer than 4 bytes: the assembler makes no decision (42_framing.md R130). -/
  | windowShort
  /-- Fewer than 12 bytes: no ACK frame (30_encoding.md R79). -/
  | ackShort
  /-- The first word is not ACK_START (30_encoding.md R79). -/
  | ackStartWrong
  /-- The last word is not ACK_END (30_encoding.md R79). -/
  | ackEndWrong
  deriving DecidableEq, Repr

/-- The priority table of R72, total on every window (30_encoding.md R73). -/
def decodeWindow (w : Word) : Instr :=
  if w = Wire.headerStart then .opHs
  else if w = Wire.headerEnd then .opHe
  else if w = Wire.chunkStart then .opCs
  else if w = Wire.chunkEnd then .opCe
  else .opData (w.extractLsb' 0 8) (w.extractLsb' 8 24)

/-- The operation at the head of the unconsumed RX bytes, and the bytes left after it (R72; 42_framing.md R130). -/
def decodeRx (b : Bytes) : Except DecodeError (Instr × Bytes) :=
  if b.length < 4 then .error .windowShort
  else
    let i := decodeWindow (Wire.le32 b 0)
    .ok (i, b.drop i.consumes)

/-- The ACK frame at the head of TX bytes, and the bytes after it (R79). The engine itself never reads TX
(30_encoding.md R80); this names what it writes. -/
def decodeTx (b : Bytes) : Except DecodeError (Instr × Bytes) :=
  if b.length < 12 then .error .ackShort
  else if Wire.le32 b 0 ≠ Wire.ackStart then .error .ackStartWrong
  else if Wire.le32 b 8 ≠ Wire.ackEnd then .error .ackEndWrong
  else .ok (.ackFrame (Wire.le32 b 4), b.drop 12)

/-- The operation encoded at the head of `b` in a direction of the transport. -/
def decode : Direction → Bytes → Except DecodeError (Instr × Bytes)
  | .rx => decodeRx
  | .tx => decodeTx

/-- The ACK frame for a code (R79): `u32le(ACK_START) ++ u32le(code) ++ u32le(ACK_END)`. -/
def ackBytes (code : Word) : Bytes :=
  Wire.u32le Wire.ackStart ++ Wire.u32le code ++ Wire.u32le Wire.ackEnd

/-- The bytes of an operation: the window of R72, or the frame of R79. -/
def encode : Instr → Bytes
  | .opHs => Wire.u32le Wire.headerStart
  | .opHe => Wire.u32le Wire.headerEnd
  | .opCs => Wire.u32le Wire.chunkStart
  | .opCe => Wire.u32le Wire.chunkEnd
  | .opData x ahead => Wire.u32le (ahead ++ x)
  | .ackFrame code => ackBytes code

/-- The width in bytes of the encoding a table row of `nbits` bits belongs to: a lookahead window up to 32 bits, else
the 96-bit transmit frame (spec/opcode_table.json, formats LOOKAHEAD32 and ACK96). -/
def tableDirection (nbits : Nat) : Direction := if nbits ≤ 32 then .rx else .tx

/-- The bytes of an opcode-table number, first byte in bits 7..0. -/
def tableBytes (nbits w : Nat) : Bytes :=
  match tableDirection nbits with
  | .rx => Wire.bytesOfNat 4 w
  | .tx => Wire.bytesOfNat 12 w

/-- The operation the decoder reads from an opcode-table number. -/
def decodeTableWord (nbits w : Nat) : Option Instr :=
  match decode (tableDirection nbits) (tableBytes nbits w) with
  | .ok (i, _) => some i
  | .error _ => none

end Sys2Proof
end

