-- ==== Sys2Proof/Config.lean ====
section
/-! DEFINITION. The deployment's configuration (00_scope.md R7; 70_reset_and_hazards.md R242) as plain data, the
document and text types it speaks of, and the constants nothing in the spec fixes. -/

namespace Sys2Proof

/-- Decoded text: a list of Unicode characters (43_diagnostic.md R162). -/
abbrev Text := List Char

mutual

/-- A value of the structured-data model (00_scope.md R11), as far as the default `ACK_TRUTH` tells values apart
(92_eei_decisions.md D11). DESIGN CHOICE, log entry 6. -/
inductive Value where
  | bool (b : Bool)
  | null
  | undefined
  | int (i : Int)
  /-- A binary64 number, by its bits. -/
  | float (bits : BitVec 64)
  | text (t : Text)
  | bytes (b : Bytes)
  | array (items : Items)
  | map (entries : Entries)
  /-- Any value of another sort: a tagged item. -/
  | tagged (tag : Nat) (v : Value)
  deriving DecidableEq, Repr, Inhabited

/-- The items of an array value. -/
inductive Items where
  | nil
  | cons (v : Value) (rest : Items)
  deriving DecidableEq, Repr, Inhabited

/-- The entries of a map value. -/
inductive Entries where
  | nil
  | cons (k v : Value) (rest : Entries)
  deriving DecidableEq, Repr, Inhabited

end

/-- A document: a finite map from integer keys to values (00_scope.md R11), the first entry of a key being the map's
(log entry 7). -/
abbrev Doc := List (Int × Value)

/-- `CHECKSUM` (40_checksum.md R101): the two options the spec names. -/
inductive ChecksumAlg where
  /-- `CRC32` (40_checksum.md R102). -/
  | crc32
  /-- `SEEDED_HASH32` (40_checksum.md R105): an uninterpreted function. -/
  | seededHash32
  deriving DecidableEq, Repr, Inhabited

/-- `CHECK_SCOPE` (40_checksum.md R103). -/
inductive CheckScope where
  | dataOnly
  | wholePrefix
  deriving DecidableEq, Repr, Inhabited

/-- `DOC_DECODE` (00_scope.md R12): a total function of the data bytes, given as a finite table (bytes not listed fail)
or left uninterpreted. DESIGN CHOICE, log entry 5. -/
inductive DocDecoder where
  | table (rows : List (Bytes × Doc))
  | external
  deriving DecidableEq, Repr, Inhabited

/-- `ACK_TRUTH` (00_scope.md R7): the default of 92_eei_decisions.md D11, or an uninterpreted function. -/
inductive AckTruth where
  | truthiness
  | external
  deriving DecidableEq, Repr, Inhabited

/-- `TEXT_DECODE` (00_scope.md R7): the default of 43_diagnostic.md R162, or an uninterpreted function. -/
inductive TextDecoder where
  | utf8Lenient
  | external
  deriving DecidableEq, Repr, Inhabited

/-- The parameters of 00_scope.md R7. They are fixed before the engine starts and no step writes them
(20_memory.md R68). -/
structure Config where
  /-- `CHECKSUM`. -/
  checksum : ChecksumAlg
  /-- `CHECK_SCOPE`. -/
  checkScope : CheckScope
  /-- `DOC_DECODE`. -/
  docDecode : DocDecoder
  /-- `ERR_DOC`. -/
  errDoc : Doc
  /-- `ACK_TRUTH`. -/
  ackTruth : AckTruth
  /-- `DIAG_PREFIXES`. -/
  diagPrefixes : List Text
  /-- `DIAG_CAP`. -/
  diagCap : Nat
  /-- `TEXT_DECODE`. -/
  textDecode : TextDecoder
  /-- `ACC_CAP`. -/
  accCap : Option Nat
  /-- `BUF_CAP`. -/
  bufCap : Option Nat
  deriving DecidableEq, Repr

/-- `QCAP`, in blocks (R7; 10_state.md R26). -/
def Config.qcap : Nat := 1000

/-- What R7 asks of a configuration: `ERR_DOC` has one key and it is not 8, `DIAG_PREFIXES` is not empty, `DIAG_CAP` is
at least 1. -/
def Config.wf (c : Config) : Bool :=
  (match c.errDoc with
    | [(k, _)] => decide (k ≠ 8)
    | _ => false) &&
  !c.diagPrefixes.isEmpty && decide (1 ≤ c.diagCap)

/-- Free value: the deployment's checksum option, OPEN in R7. -/
opaque Config.openChecksum : ChecksumAlg

/-- Free value: the deployment's document decoder, OPEN in R7. -/
opaque Config.openDocDecode : DocDecoder

/-- Free value: a key of the error-marker document, OPEN in R7. -/
opaque Config.openErrKey : Int

/-- Free value: the value of the error-marker document, OPEN in R7. -/
opaque Config.openErrValue : Value

/-- Free value: one diagnostic prefix, OPEN in R7. -/
opaque Config.openDiagPrefix : Text

/-- Free value: the further diagnostic prefixes, OPEN in R7. -/
opaque Config.openMorePrefixes : List Text

/-- Free value: one less than the diagnostic cap, OPEN in R7. -/
opaque Config.openDiagCapPred : Nat

/-- The deployment's configuration at reset: each OPEN parameter is a free value within the bounds of R7, every other
parameter stands at the value R7 gives it. -/
def Config.deployed : Config where
  checksum := Config.openChecksum
  checkScope := .dataOnly
  docDecode := Config.openDocDecode
  errDoc := [(if Config.openErrKey = 8 then 9 else Config.openErrKey, Config.openErrValue)]
  ackTruth := .truthiness
  diagPrefixes := Config.openDiagPrefix :: Config.openMorePrefixes
  diagCap := Config.openDiagCapPred + 1
  textDecode := .utf8Lenient
  accCap := none
  bufCap := none

/-- Free value: the seeded hash, of which only R100 may be assumed (40_checksum.md R105). -/
opaque Config.seededHash32 : Bytes → Word

/-- Free value: a document decoder that is not given as a table (00_scope.md R12). -/
opaque Config.externalDoc : Bytes → Option Doc

/-- Free value: an `ACK_TRUTH` other than the default (00_scope.md R7). -/
opaque Config.externalTruth : Value → Bool

/-- Free value: a `TEXT_DECODE` other than the default (00_scope.md R7). -/
opaque Config.externalText : Bytes → Text

end Sys2Proof
end

