-- ==== Sys2Proof/Machine/State.lean ====
section
/-! DEFINITION. Everything the spec gives the machine (10_state.md), the inputs of its environment, the reasons a step
stops, and the state after reset. -/

namespace Sys2Proof.Machine

/-- The frame-assembler state register (10_state.md R21). -/
inductive Fsm where
  | idle
  | receivingHeader
  | receivingChunk
  deriving DecidableEq, Repr

/-- The Processor's loop phase (10_state.md R25). -/
inductive Phase where
  | poll
  | drain
  | stopped
  deriving DecidableEq, Repr

/-- The Reader's liveness (10_state.md R28). -/
inductive ReaderState where
  | running
  | exited
  deriving DecidableEq, Repr

/-- Which marker pair delimited a frame (10_state.md R32). -/
inductive Kind where
  | header
  | chunk
  deriving DecidableEq, Repr

/-- Why a payload is rejected (44_envelope.md R171, R173, R174). -/
inductive MalformedReason where
  | tooShort
  | lengthOverrun
  | codeTruncated
  deriving DecidableEq, Repr

/-- The envelope record (10_state.md R32). -/
structure Envelope where
  kind : Kind
  packetId : Int
  doc : Doc
  docOk : Bool
  ackRequested : Bool
  hashValid : Bool
  receivedCode : Word
  calculatedCode : Word
  rawPayload : Bytes
  deriving DecidableEq, Repr

/-- The log events (10_state.md R34). -/
inductive LogEvent where
  | diag (text : Text)
  | malformed (kind : Kind) (reason : MalformedReason)
  | checksumMismatch (kind : Kind) (packetId : Int) (receivedCode calculatedCode : Word)
  | docDecodeFailure (kind : Kind) (packetId : Int)
  | txWriteError
  | rxReadError
  deriving DecidableEq, Repr

/-- The transport's answer to one ACK write (45_ack.md R192): all 12 bytes sent, or only the first `sent` of them
(20_memory.md R60: 0 to 11). -/
inductive WriteAnswer where
  | ok
  | fail (sent : Fin 12)
  deriving DecidableEq, Repr, Inhabited

/-- The transport's answer to one read (41_intake.md R110, R112): a block of `more + 1` bytes, or as many as have
arrived if they are fewer, or an error. -/
inductive ReadAnswer where
  | bytes (more : Nat)
  | error
  deriving DecidableEq, Repr, Inhabited

/-- Who moves next, with the environment's answers that the move needs (10_state.md R20). -/
inductive Turn where
  /-- P is scheduled: the answer to the ACK write and to `is_complete()` of this step, should it ask. -/
  | processor (write : WriteAnswer) (complete : Bool)
  /-- R is scheduled: the answer to its read, should it read. -/
  | reader (answer : ReadAnswer)
  /-- S is scheduled. -/
  | supervisor
  /-- The caller sets `stop` (10_state.md R27). -/
  | callerStop
  /-- Bytes arrive at the transport. -/
  | arrive (bytes : Bytes)
  deriving DecidableEq, Repr, Inhabited

/-- The machine. -/
structure State where
  /-- The deployment's configuration: constants, written by no step (10_state.md R31; 20_memory.md R68). -/
  cfg : Config
  /-- Whether a viable transport was found at boot (60_exceptions.md R217; 70_reset_and_hazards.md R241). -/
  viable : Bool
  /-- 10_state.md R21. -/
  fsm : Fsm
  /-- 10_state.md R22. -/
  buf : Bytes
  /-- 10_state.md R23. -/
  acc : Bytes
  /-- 10_state.md R24. -/
  line : Bytes
  /-- 10_state.md R25. -/
  phase : Phase
  /-- 10_state.md R26. -/
  queue : List Bytes
  /-- 10_state.md R27. -/
  stop : Bool
  /-- 10_state.md R28. -/
  reader : ReaderState
  /-- The block R holds while the queue is full (41_intake.md R110). -/
  held : Option Bytes
  /-- What the transport has received and R has not read (41_intake.md R110). -/
  rx : Bytes
  /-- The ghost stream position (10_state.md R29). -/
  pos : Nat
  /-- Bytes written to the TX direction (10_state.md R33). -/
  tx : Bytes
  /-- Failed ACK writes (10_state.md R33). -/
  txfail : Nat
  /-- Delivered envelopes (10_state.md R33). -/
  envs : List (Kind × Envelope)
  /-- Log events (10_state.md R33). -/
  logs : List LogEvent
  /-- Answers of `is_complete()` (10_state.md R33). -/
  cq : List Bool
  /-- The model's own: the transport's answer to an ACK write of the present step. -/
  writeAnswer : WriteAnswer
  /-- The model's own: the Collector's answer to `is_complete()` in the present step. -/
  completeAnswer : Bool
  /-- The model's own: the schedule to come. After it the schedule is free (`freeTurn`). -/
  turns : List Turn
  /-- The model's own: how many free turns have been drawn. -/
  tick : Nat
  deriving DecidableEq, Repr

/-- Reasons the machine stops. -/
inductive Fault where
  /-- Raised by `OP_DATA` when `acc` has reached a finite `ACC_CAP`: P is stuck (42_framing.md R136;
  93_implementation_defined.md I10). Safe: the model stops where R and S could still move. -/
  | accCapReached
  /-- Raised by the pop when the block does not fit a finite `BUF_CAP`: P is stuck (41_intake.md R114;
  93_implementation_defined.md I10). Safe: the model stops where R and S could still move. -/
  | bufCapReached
  /-- Raised by every step of an engine that was never started for want of a transport: fatal, surfaced to the caller
  (60_exceptions.md R217). Safe: no agent takes a step there. -/
  | unsupportedEnvironment
  deriving DecidableEq, Repr

/-- Reasons an instruction has no meaning. -/
inductive Refusal where
  /-- Raised by `exec` for an operation without a meaning yet; no arm raises it. Safe: nothing follows. -/
  | notModelled (mnemonic : String)
  deriving DecidableEq, Repr

/-- The state after reset (10_state.md R37; 70_reset_and_hazards.md R240). The fields R37 does not list stand at the
values named in log entries 3, 9, 10, 11, 12 and 15. -/
def State.reset : State where
  cfg := Config.deployed
  viable := true
  fsm := .idle
  buf := []
  acc := []
  line := []
  phase := .poll
  queue := []
  stop := false
  reader := .running
  held := none
  rx := []
  pos := 0
  tx := []
  txfail := 0
  envs := []
  logs := []
  cq := []
  writeAnswer := .ok
  completeAnswer := false
  turns := []
  tick := 0

end Sys2Proof.Machine
end

