-- ==== Sys2Proof/Machine/Operands.lean ====
section
/-! DEFINITION. What the operations read: the lookahead window and the fields of a payload (30_encoding.md R75). -/

namespace Sys2Proof.Machine

/-- The 2-bit encoding of `fsm` (10_state.md R21). -/
def fsmCode : Fsm → BitVec 2
  | .idle => 0#2
  | .receivingHeader => 1#2
  | .receivingChunk => 2#2

/-- The state an encoding stands for; 3 stands for none (10_state.md R21; 93_implementation_defined.md I8). -/
def fsmOfCode (c : BitVec 2) : Option Fsm :=
  if c = 0#2 then some .idle
  else if c = 1#2 then some .receivingHeader
  else if c = 2#2 then some .receivingChunk
  else none

/-- `Peek4(buf)` (00_scope.md R9). -/
def peek4 (s : State) : Word := Wire.le32 s.buf 0

/-- `H`: the bytes of the packet id, 4 in a Chunk payload and 0 in a Header payload (R75). -/
def idBytes : Kind → Nat
  | .header => 0
  | .chunk => 4

/-- `L = le16(p, H)`, unsigned (R75; 44_envelope.md R173). -/
def payloadLength (k : Kind) (p : Bytes) : Nat := (Wire.le16 p (idBytes k)).toNat

/-- The packet id: `le32(p, 0)`, unsigned, for a Chunk; the sentinel -1 for a Header (44_envelope.md R172). -/
def payloadId : Kind → Bytes → Int
  | .header, _ => -1
  | .chunk, p => Int.ofNat (Wire.le32 p 0).toNat

/-- The structured data `p[H+2 .. H+2+L)` (44_envelope.md R175). -/
def payloadData (k : Kind) (p : Bytes) : Bytes :=
  Wire.slice p (idBytes k + 2) (idBytes k + 2 + payloadLength k p)

/-- The integrity code `le32(p, H+2+L)` (44_envelope.md R175). -/
def payloadCode (k : Kind) (p : Bytes) : Word :=
  Wire.le32 p (idBytes k + 2 + payloadLength k p)

/-- The checked region (40_checksum.md R103). -/
def checkedRegion (scope : CheckScope) (k : Kind) (p : Bytes) : Bytes :=
  match scope with
  | .dataOnly => payloadData k p
  | .wholePrefix => Wire.slice p 0 (idBytes k + 2 + payloadLength k p)

end Sys2Proof.Machine
end

