-- ==== Sys2Proof/Machine/Ops.lean ====
section
/-! DEFINITION. The named operations over the engine's registers and output ports (00_scope.md R9). The engine has no
trap, saved state or return from one (60_exceptions.md R210, R222, R223): an error is a log event and the run goes on,
so no exception-entry operation exists. -/

namespace Sys2Proof.Machine

/-- `Consume(n)` (R9), with the ghost position (10_state.md R29). -/
def consume (n : Nat) (s : State) : State :=
  { s with buf := s.buf.drop n, pos := s.pos + n }

/-- `Append(acc, x)` (R9). -/
def appendAcc (x : Byte) (s : State) : State := { s with acc := s.acc ++ [x] }

/-- A start marker's effect on the frame registers (42_framing.md R132, R134): a new frame begins empty. -/
def openFrame (f : Fsm) (s : State) : State := { s with acc := [], fsm := f }

/-- A matching end marker's effect on the frame registers (42_framing.md R133, R135). -/
def closeFrame (s : State) : State := { s with acc := [], fsm := .idle }

/-- `log(event)` (R9; 10_state.md R33). -/
def logEvent (e : LogEvent) (s : State) : State := { s with logs := s.logs ++ [e] }

/-- `deliver(kind, env)` (45_ack.md R193). -/
def deliver (k : Kind) (e : Envelope) (s : State) : State := { s with envs := s.envs ++ [(k, e)] }

/-- `query_complete()` (45_ack.md R194): asked once, the answer recorded. -/
def queryComplete (s : State) : State := { s with cq := s.cq ++ [s.completeAnswer] }

/-- `AckWrite(bytes)` (45_ack.md R192): the transport's answer decides what reaches the wire; a failed write is
counted and logged and never retried. -/
def ackWrite (bytes : Bytes) (s : State) : State :=
  match s.writeAnswer with
  | .ok => { s with tx := s.tx ++ bytes }
  | .fail k => logEvent .txWriteError { s with tx := s.tx ++ bytes.take k.val, txfail := s.txfail + 1 }

/-- Whether a finite capacity has no room for `n` bytes (92_eei_decisions.md D29). -/
def overCap (cap : Option Nat) (n : Nat) : Bool :=
  match cap with
  | none => false
  | some c => decide (c < n)

/-- The numeric code of a log event (60_exceptions.md R211). -/
def eventCode : LogEvent → Nat
  | .diag _ => 0
  | .malformed _ .tooShort => 1
  | .malformed _ .lengthOverrun => 2
  | .malformed _ .codeTruncated => 3
  | .checksumMismatch _ _ _ _ => 4
  | .docDecodeFailure _ _ => 5
  | .txWriteError => 6
  | .rxReadError => 7

/-- The code of `UNSUPPORTED_ENVIRONMENT` (60_exceptions.md R211), which is surfaced to the caller and never logged
(R217); the two stuck states have none. -/
def faultCode : Fault → Option Nat
  | .unsupportedEnvironment => some 8
  | .accCapReached | .bufCapReached => none

end Sys2Proof.Machine
end

