-- ==== Sys2Proof/Machine/TextDecode.lean ====
section
/-! DEFINITION. `TEXT_DECODE` (43_diagnostic.md R162) and the tests and trims of a decoded line (R160, R161). -/

namespace Sys2Proof.Machine

/-- Whether a byte lies in `lo .. hi`. -/
def byteIn (x : Byte) (lo hi : Nat) : Bool := decide (lo ≤ x.toNat) && decide (x.toNat ≤ hi)

/-- The six payload bits of a continuation byte. -/
def tail6 (x : Byte) : Nat := x.toNat % 64

/-- The well-formed UTF-8 sequence at the head of `b`, if there is one: its character and how many bytes follow the
first (the ranges exclude overlong forms, surrogates and numbers above 10FFFF). PRESUMED, log entry 8. -/
def utf8Head : Bytes → Option (Char × Nat)
  | [] => none
  | b0 :: rest =>
    let b1 := Wire.byteAt rest 0
    let b2 := Wire.byteAt rest 1
    let b3 := Wire.byteAt rest 2
    let n := rest.length
    if byteIn b0 0x00 0x7F then some (Char.ofNat b0.toNat, 0)
    else if byteIn b0 0xC2 0xDF && decide (1 ≤ n) && byteIn b1 0x80 0xBF then
      some (Char.ofNat ((b0.toNat - 0xC0) * 64 + tail6 b1), 1)
    else if byteIn b0 0xE0 0xEF && decide (2 ≤ n) &&
        byteIn b1 (if b0 = 0xE0#8 then 0xA0 else 0x80) (if b0 = 0xED#8 then 0x9F else 0xBF) &&
        byteIn b2 0x80 0xBF then
      some (Char.ofNat ((b0.toNat - 0xE0) * 4096 + tail6 b1 * 64 + tail6 b2), 2)
    else if byteIn b0 0xF0 0xF4 && decide (3 ≤ n) &&
        byteIn b1 (if b0 = 0xF0#8 then 0x90 else 0x80) (if b0 = 0xF4#8 then 0x8F else 0xBF) &&
        byteIn b2 0x80 0xBF && byteIn b3 0x80 0xBF then
      some (Char.ofNat ((b0.toNat - 0xF0) * 262144 + tail6 b1 * 4096 + tail6 b2 * 64 + tail6 b3), 3)
    else none

/-- UTF-8 decoding that drops every byte that belongs to no well-formed sequence; `skip` counts the bytes still to pass
over of a sequence already decoded. -/
def utf8LenientFrom : Nat → Bytes → Text
  | _, [] => []
  | skip + 1, _ :: rest => utf8LenientFrom skip rest
  | 0, b :: rest =>
    match utf8Head (b :: rest) with
    | some (c, n) => c :: utf8LenientFrom n rest
    | none => utf8LenientFrom 0 rest

/-- `TEXT_DECODE` under the deployment's option (43_diagnostic.md R162). -/
def textDecode : TextDecoder → Bytes → Text
  | .utf8Lenient, b => utf8LenientFrom 0 b
  | .external, b => Config.externalText b

/-- Whether a line's text begins with a recognised diagnostic prefix (43_diagnostic.md R160). -/
def recognised (prefixes : List Text) (t : Text) : Bool := prefixes.any fun p => p.isPrefixOf t

/-- `stripFinalLF` (43_diagnostic.md R161): the text without its one final newline. -/
def stripFinalLF (t : Text) : Text :=
  if t.getLast? = some '\n' then t.dropLast else t

end Sys2Proof.Machine
end

