-- ==== Sys2Proof/Machine/Diagnostic.lean ====
section
/-! DEFINITION. The diagnostic line side channel (43_diagnostic.md). -/

namespace Sys2Proof.Machine

/-- A finished line: forwarded if its text has a recognised prefix, dropped silently otherwise (43_diagnostic.md
R160). -/
def endLine (l : Bytes) (s : State) : State :=
  let t := textDecode s.cfg.textDecode l
  let s' := { s with line := [] }
  if recognised s.cfg.diagPrefixes t then logEvent (.diag (stripFinalLF t)) s' else s'

/-- `DiagFeed(b)` (R160). -/
def diagFeed (s : State) (b : Byte) : State :=
  let l := s.line ++ [b]
  if b = Wire.newline then endLine l s
  else if s.cfg.diagCap < l.length then { s with line := [] }
  else { s with line := l }

/-- The feed of a popped block, first byte first (41_intake.md R114). -/
def diagFeedAll (blk : Bytes) (s : State) : State := blk.foldl diagFeed s

end Sys2Proof.Machine
end

