-- ==== Sys2Proof/Machine/Ack.lean ====
section
/-! DEFINITION. The ACK frame and its gate (45_ack.md R190-R192). -/

namespace Sys2Proof.Machine

/-- `AckGate(e)` (45_ack.md R190). -/
def ackGate (e : Envelope) (s : State) : State :=
  if e.ackRequested && e.hashValid then ackWrite (ackBytes e.receivedCode) s else s

/-- `ACK_FRAME` (45_ack.md R191, R192): the 12-byte frame of `code` is written to TX. -/
def execAckFrame (code : Word) (s : State) : Host.Outcome State Fault Refusal :=
  .next (ackWrite (ackBytes code) s)

end Sys2Proof.Machine
end

