-- ==== Sys2Proof/Machine/Checksum.lean ====
section
/-! DEFINITION. The checksum function (40_checksum.md). -/

namespace Sys2Proof.Machine

/-- One of the 8 rounds of a byte (40_checksum.md R102). -/
def crcRound (c : Word) : Word :=
  bif c.getLsbD 0 then (c >>> 1) ^^^ 0xEDB88320#32 else c >>> 1

/-- `n` rounds. -/
def crcRounds : Nat → Word → Word
  | 0, c => c
  | n + 1, c => crcRounds n (crcRound c)

/-- One byte taken into the register (R102). -/
def crcByte (c : Word) (x : Byte) : Word := crcRounds 8 (c ^^^ x.setWidth 32)

/-- `CRC32` (R102). -/
def crc32 (b : Bytes) : Word := b.foldl crcByte 0xFFFFFFFF#32 ^^^ 0xFFFFFFFF#32

/-- `CHECKSUM` under the deployment's option (40_checksum.md R100, R101). -/
def checksum : ChecksumAlg → Bytes → Word
  | .crc32, b => crc32 b
  | .seededHash32, b => Config.seededHash32 b

end Sys2Proof.Machine
end

