-- ==== Sys2Proof/Machine/Flags.lean ====
section
/-! DEFINITION. The two Boolean outcomes of an envelope, `hash_valid` and `ack_requested` (10_state.md R30), and the
document they are read from. -/

namespace Sys2Proof.Machine

/-- `hash_valid` (40_checksum.md R104). -/
def hashValid (received calculated : Word) : Bool := decide (received = calculated)

/-- `lookup(doc, k)` (00_scope.md R11). -/
def docLookup (d : Doc) (k : Int) : Option Value :=
  (d.find? fun e => decide (e.1 = k)).map (·.2)

/-- `DOC_DECODE` under the deployment's option (00_scope.md R12); `none` is `Fail`. -/
def docDecode : DocDecoder → Bytes → Option Doc
  | .table rows, b => (rows.find? fun r => decide (r.1 = b)).map (·.2)
  | .external, b => Config.externalDoc b

/-- The default `ACK_TRUTH` (92_eei_decisions.md D11). PRESUMED, log entry 6: both zeros of a binary64 number are
false. -/
def truthiness : Value → Bool
  | .bool b => b
  | .null => false
  | .undefined => false
  | .int i => decide (i ≠ 0)
  | .float bits => decide (bits.extractLsb' 0 63 ≠ 0#63)
  | .text t => !t.isEmpty
  | .bytes b => !b.isEmpty
  | .array .nil => false
  | .array (.cons _ _) => true
  | .map .nil => false
  | .map (.cons _ _ _) => true
  | .tagged _ _ => true

/-- `ACK_TRUTH` under the deployment's option (00_scope.md R7). -/
def ackTruth : AckTruth → Value → Bool
  | .truthiness, v => truthiness v
  | .external, v => Config.externalTruth v

/-- `ack_requested` (44_envelope.md R178): from key 8 of the document, true when the key is absent. -/
def ackRequested (t : AckTruth) (d : Doc) : Bool :=
  match docLookup d 8 with
  | none => true
  | some v => ackTruth t v

end Sys2Proof.Machine
end

