-- ==== Sys2Proof/Machine/Envelope.lean ====
section
/-! DEFINITION. The Packet Decoder (44_envelope.md R170). -/

namespace Sys2Proof.Machine

/-- The Packet Decoder's result (44_envelope.md R170). -/
inductive DecodeResult where
  | malformed (reason : MalformedReason)
  | env (e : Envelope)
  deriving DecidableEq, Repr

/-- The first of the three checks that fails, in the order of 44_envelope.md R180. -/
def rejection (k : Kind) (p : Bytes) : Option MalformedReason :=
  if p.length < idBytes k + 2 then some .tooShort
  else if p.length - idBytes k - 2 < payloadLength k p then some .lengthOverrun
  else if p.length - idBytes k - 2 - payloadLength k p < 4 then some .codeTruncated
  else none

/-- The envelope of a payload that passes the checks (44_envelope.md R172-R179). -/
def envelopeOf (c : Config) (k : Kind) (p : Bytes) : Envelope :=
  let data := payloadData k p
  let received := payloadCode k p
  let calculated := checksum c.checksum (checkedRegion c.checkScope k p)
  let decoded := docDecode c.docDecode data
  let doc := decoded.getD c.errDoc
  { kind := k
    packetId := payloadId k p
    doc := doc
    docOk := decoded.isSome
    ackRequested := ackRequested c.ackTruth doc
    hashValid := hashValid received calculated
    receivedCode := received
    calculatedCode := calculated
    rawPayload := p }

/-- `Decode(kind, p)` (R170): it depends on the kind, the payload and the configuration alone. -/
def decodePayload (c : Config) (k : Kind) (p : Bytes) : DecodeResult :=
  match rejection k p with
  | some r => .malformed r
  | none => .env (envelopeOf c k p)

end Sys2Proof.Machine
end

