-- ==== Sys2Proof/Machine/Frame.lean ====
section
/-! DEFINITION. What happens to a finalized frame (42_framing.md R137). -/

namespace Sys2Proof.Machine

/-- The events of an envelope, in the order of 60_exceptions.md R221(c): `DocDecodeFailure`, then
`ChecksumMismatch`. -/
def envelopeEvents (k : Kind) (e : Envelope) : List LogEvent :=
  (if e.docOk then [] else [.docDecodeFailure k e.packetId]) ++
  (if e.hashValid then [] else [.checksumMismatch k e.packetId e.receivedCode e.calculatedCode])

/-- The part of `ProcessFrame` after a successful decode (42_framing.md R137): events, ACK gate, delivery, and the
completion query of a Chunk (45_ack.md R194). -/
def processEnvelope (k : Kind) (e : Envelope) (s : State) : State :=
  let s1 := { s with logs := s.logs ++ envelopeEvents k e }
  let s2 := deliver k e (ackGate e s1)
  match k with
  | .header => s2
  | .chunk => queryComplete s2

/-- `ProcessFrame(kind, p)` (42_framing.md R137). -/
def processFrame (k : Kind) (p : Bytes) (s : State) : State :=
  match decodePayload s.cfg k p with
  | .malformed r => logEvent (.malformed k r) s
  | .env e => processEnvelope k e s

end Sys2Proof.Machine
end

