-- ==== Sys2Proof/Machine/Assembler.lean ====
section
/-! DEFINITION. The five operations of the Frame Assembler (42_framing.md R132-R136). -/

namespace Sys2Proof.Machine

/-- `OP_HS` (42_framing.md R132): in every state a new Header frame begins and an open frame is dropped. -/
def execOpHs (s : State) : Host.Outcome State Fault Refusal :=
  .next (openFrame .receivingHeader (consume 4 s))

/-- `OP_HE` (42_framing.md R133): an open Header frame is finalized; otherwise only the marker is consumed. -/
def execOpHe (s : State) : Host.Outcome State Fault Refusal :=
  match s.fsm with
  | .receivingHeader => .next (processFrame .header s.acc (closeFrame (consume 4 s)))
  | .idle | .receivingChunk => .next (consume 4 s)

/-- `OP_CS` (42_framing.md R134): in every state a new Chunk frame begins and an open frame is dropped. -/
def execOpCs (s : State) : Host.Outcome State Fault Refusal :=
  .next (openFrame .receivingChunk (consume 4 s))

/-- `OP_CE` (42_framing.md R135): an open Chunk frame is finalized; otherwise only the marker is consumed. -/
def execOpCe (s : State) : Host.Outcome State Fault Refusal :=
  match s.fsm with
  | .receivingChunk => .next (processFrame .chunk s.acc (closeFrame (consume 4 s)))
  | .idle | .receivingHeader => .next (consume 4 s)

/-- `OP_DATA` (42_framing.md R136): a byte of a frame is accumulated, a byte outside any frame is discarded; at a
finite `ACC_CAP` P is stuck. The bytes looked ahead at are not consumed. -/
def execOpData (x : Byte) (_ahead : BitVec 24) (s : State) : Host.Outcome State Fault Refusal :=
  match s.fsm with
  | .idle => .next (consume 1 s)
  | .receivingHeader | .receivingChunk =>
    if s.cfg.accCap = some s.acc.length then .fault .accCapReached
    else .next (appendAcc x (consume 1 s))

end Sys2Proof.Machine
end

