-- ==== Sys2Proof/Machine/Dispatch.lean ====
section
/-! DEFINITION. The meaning of every operation, one arm each. -/

namespace Sys2Proof.Machine

def exec (i : Instr) (s : State) : Host.Outcome State Fault Refusal :=
  match i with
  | .opHs => Sys2Proof.Machine.execOpHs s
  | .opHe => Sys2Proof.Machine.execOpHe s
  | .opCs => Sys2Proof.Machine.execOpCs s
  | .opCe => Sys2Proof.Machine.execOpCe s
  | .opData x ahead => Sys2Proof.Machine.execOpData x ahead s
  | .ackFrame code => Sys2Proof.Machine.execAckFrame code s

end Sys2Proof.Machine
end

