-- ==== Sys2Proof/Machine/Agents.lean ====
section
/-! DEFINITION. The steps of the agents (10_state.md R20): the Processor's loop and the Reader (41_intake.md), the
Supervisor (60_exceptions.md R219), the caller and the transport. An agent whose guard does not hold has no step: its
turn changes nothing. -/

namespace Sys2Proof.Machine

/-- Pop (41_intake.md R114): the block leaves the queue, the diagnostic channel sees its bytes, they join `buf`, and
the drain begins; with a finite `BUF_CAP` that the block does not fit, P is stuck. -/
def popBlock (blk : Bytes) (rest : List Bytes) (s : State) : Host.Outcome State Fault Refusal :=
  if overCap s.cfg.bufCap (s.buf.length + blk.length) then .fault .bufCapReached
  else
    let s1 := diagFeedAll blk { s with queue := rest }
    .next { s1 with buf := s1.buf ++ blk, phase := .drain }

/-- The top of P's loop (41_intake.md R114, R117, R118): stop wins over a waiting block (60_exceptions.md R221(d)), and
an empty queue is a hold. -/
def pollStep (s : State) : Host.Outcome State Fault Refusal :=
  if s.stop then .next { s with phase := .stopped }
  else
    match s.queue with
    | [] => .next s
    | blk :: rest => popBlock blk rest s

/-- A step of the drain (41_intake.md R115, R116): with fewer than 4 bytes back to `Poll`, else one assembler
operation, decoded from the lookahead (42_framing.md R130). -/
def drainStep (s : State) : Host.Outcome State Fault Refusal :=
  if s.buf.length < 4 then .next { s with phase := .poll }
  else exec (decodeWindow (peek4 s)) s

/-- A step of P. `Stopped` has none (41_intake.md R117; 60_exceptions.md R229). -/
def processorStep (s : State) : Host.Outcome State Fault Refusal :=
  match s.phase with
  | .poll => pollStep s
  | .drain => drainStep s
  | .stopped => .next s

/-- A block R has in hand joins the queue if there is room, else R holds it (41_intake.md R110). -/
def offerBlock (blk : Bytes) (s : State) : State :=
  if s.queue.length < Config.qcap then { s with queue := s.queue ++ [blk], held := none }
  else { s with held := some blk }

/-- R's check and read of the transport (60_exceptions.md R226). With no byte available R holds and reads nothing,
whatever a read would answer (41_intake.md R113; log entry 26); a read of available bytes makes them one block (R110)
or fails and ends R (R112). -/
def readTransport (answer : ReadAnswer) (s : State) : State :=
  if s.rx.isEmpty then s
  else
    match answer with
    | .error => logEvent .rxReadError { s with reader := .exited }
    | .bytes more => offerBlock (s.rx.take (more + 1)) { s with rx := s.rx.drop (more + 1) }

/-- A step of R (41_intake.md R110-R113). Stop wins over available bytes (60_exceptions.md R221(e)) and discards a held
block (R111); while R holds a block it does not read (log entry 12). -/
def readerStep (answer : ReadAnswer) (s : State) : State :=
  match s.reader with
  | .exited => s
  | .running =>
    if s.stop then { s with reader := .exited, held := none }
    else
      match s.held with
      | some blk => offerBlock blk s
      | none => readTransport answer s

/-- A step of S (60_exceptions.md R219): the stop signal is raised once the Reader has died. -/
def supervisorStep (s : State) : State :=
  match s.reader with
  | .exited => { s with stop := true }
  | .running => s

/-- The caller cancels (10_state.md R27). -/
def setStop (s : State) : State := { s with stop := true }

/-- Bytes arrive at the transport, after those already there (20_memory.md R62). -/
def arriveBytes (bytes : Bytes) (s : State) : State := { s with rx := s.rx ++ bytes }

/-- The answers a turn of P brings stand in the state for the operations to read. -/
def withAnswers (write : WriteAnswer) (complete : Bool) (s : State) : State :=
  { s with writeAnswer := write, completeAnswer := complete }

/-- The move a turn names. -/
def runTurn (t : Turn) (s : State) : Host.Outcome State Fault Refusal :=
  match t with
  | .processor write complete => processorStep (withAnswers write complete s)
  | .reader answer => .next (readerStep answer s)
  | .supervisor => .next (supervisorStep s)
  | .callerStop => .next (setStop s)
  | .arrive bytes => .next (arriveBytes bytes s)

/-- Free value: the schedule after the turns the state lists (10_state.md R20; 93_implementation_defined.md I19). -/
opaque freeTurn : Nat → Turn

/-- The next turn, and the state without it. -/
def nextTurn (s : State) : Turn × State :=
  match s.turns with
  | t :: rest => (t, { s with turns := rest })
  | [] => (freeTurn s.tick, { s with tick := s.tick + 1 })

/-- One step of the whole machine: the next turn's move; an engine without a transport never leaves reset
(60_exceptions.md R217). -/
def machineStep (s : State) : Host.Outcome State Fault Refusal :=
  if s.viable then runTurn (nextTurn s).1 (nextTurn s).2
  else .fault .unsupportedEnvironment

end Sys2Proof.Machine
end

