-- ==== Sys2Proof/Machine/Fetch.lean ====
section
/-! DEFINITION. Placing an operation so that the very next step runs it (log entry 1). -/

namespace Sys2Proof.Machine

/-- One round of `crcRound` undone: the polynomial's top bit tells which branch was taken. -/
def crcUnround (c : Word) : Word :=
  bif c.getLsbD 31 then ((c ^^^ 0xEDB88320#32) <<< 1) ||| 1#32 else c <<< 1

/-- `n` rounds undone. -/
def crcUnrounds : Nat → Word → Word
  | 0, c => c
  | n + 1, c => crcUnrounds n (crcUnround c)

/-- The four data bytes whose CRC-32 is `code`. -/
def crcPreimage (code : Word) : Bytes :=
  Wire.u32le (crcUnrounds 32 (code ^^^ 0xFFFFFFFF#32) ^^^ 0xFFFFFFFF#32)

/-- The lookahead window stands at the head of `buf` and P is scheduled in its drain. -/
def placeWindow (window : Bytes) (s : State) : State :=
  { s with
    phase := .drain
    buf := window ++ s.buf.drop 4
    turns := .processor .ok false :: s.turns }

/-- The engine writes an ACK frame only when it finalizes a frame that asks for it (45_ack.md R190). So the frame of
`code` is placed as a Header frame at its end marker: four data bytes whose CRC-32 is `code`, a deployment that uses
CRC-32 and reads those bytes as a document without key 8. -/
def placeAck (code : Word) (s : State) : State :=
  let data := crcPreimage code
  { placeWindow (encode .opHe) s with
    fsm := .receivingHeader
    acc := Wire.u16le 4#16 ++ data ++ Wire.u32le code
    cfg := { s.cfg with checksum := .crc32, checkScope := .dataOnly, docDecode := .table [(data, [])] } }

/-- An opcode-table number placed where the next step takes its operation from: an ACK frame by `placeAck`, everything
else as a lookahead window. -/
def placeWord (s : State) (nbits w : Nat) : State :=
  match decodeTableWord nbits w with
  | some (.ackFrame code) => placeAck code s
  | _ => placeWindow ((tableBytes nbits w).take 4) s

end Sys2Proof.Machine
end

