-- ==== Sys2Proof/Machine/Sender.lean ====
section
/-! DEFINITION. What a conforming sender puts on the wire: the abbreviations of the stream notation (30_encoding.md R82)
over the frame and payload layouts (R74, R75). The engine runs none of this; claims speak of it. -/

namespace Sys2Proof.Machine

/-- The start marker of a kind (R74). -/
def startMarker : Kind → Word
  | .header => Wire.headerStart
  | .chunk => Wire.chunkStart

/-- The end marker of a kind (R74). -/
def endMarker : Kind → Word
  | .header => Wire.headerEnd
  | .chunk => Wire.chunkEnd

/-- The packet id field: 4 bytes in a Chunk payload, absent from a Header payload (R75). -/
def idField : Kind → Word → Bytes
  | .header, _ => []
  | .chunk, id => Wire.u32le id

/-- The payload up to the end of its data (R75). -/
def payloadFront (k : Kind) (id : Word) (data : Bytes) : Bytes :=
  idField k id ++ Wire.u16le (BitVec.ofNat 16 data.length) ++ data

/-- The integrity code of well-formed data: `ck(d)` of R82, over the whole front under `PREFIX`. -/
def payloadCheck (c : Config) (k : Kind) (id : Word) (data : Bytes) : Word :=
  checksum c.checksum
    (match c.checkScope with
      | .dataOnly => data
      | .wholePrefix => payloadFront k id data)

/-- A well-formed payload (R75, R82). -/
def payloadBytes (c : Config) (k : Kind) (id : Word) (data : Bytes) : Bytes :=
  payloadFront k id data ++ Wire.u32le (payloadCheck c k id data)

/-- A frame of a payload on the wire (R74). -/
def wireFrame (k : Kind) (p : Bytes) : Bytes :=
  Wire.u32le (startMarker k) ++ p ++ Wire.u32le (endMarker k)

/-- `HFRAME(d)` and `CFRAME(id, d)` (R82). -/
def frameBytes (c : Config) (k : Kind) (id : Word) (data : Bytes) : Bytes :=
  wireFrame k (payloadBytes c k id data)

end Sys2Proof.Machine
end

