-- ==== Sys2Proof/Safety.lean ====
section
/-! DEFINITION. The terms claims are made in: runs of the Processor, the stream still to be consumed, the invariant of
every step, and which agents are enabled. -/

namespace Sys2Proof.Machine

/-- The environment's answers to P as a function of the stream position (10_state.md R29): two runs that ask at the
same position are answered alike, whatever blocks the stream came in (41_intake.md R119). -/
abbrev Answers := Nat → WriteAnswer × Bool

/-- P's turn with the answers for the present position. -/
def processorTurn (f : Answers) (s : State) : Turn := .processor (f s.pos).1 (f s.pos).2

/-- `n` steps in which P alone is scheduled. -/
def processorRun (f : Answers) : Nat → State → Host.Outcome State Fault Refusal
  | 0, s => .next s
  | n + 1, s =>
    match step { s with turns := [processorTurn f s] } with
    | .next t => processorRun f n t
    | .fault r => .fault r
    | .refused r => .refused r

/-- The stream not yet consumed, in arrival order (20_memory.md R62): `buf`, the queued blocks, the block R holds, the
transport. -/
def pendingStream (s : State) : Bytes :=
  s.buf ++ s.queue.flatten ++ s.held.getD [] ++ s.rx

/-- What a turn adds to the end of the stream. -/
def arrivals : Turn → Bytes
  | .arrive b => b
  | .processor _ _ | .reader _ | .supervisor | .callerStop => []

/-- The ACK frames of the delivered envelopes that ask for one and verify, in delivery order (45_ack.md R196). -/
def ackStream (envs : List (Kind × Envelope)) : Bytes :=
  envs.flatMap fun ke => if ke.2.ackRequested && ke.2.hashValid then ackBytes ke.2.receivedCode else []

/-- No 4-byte window of `p` is a frame marker (70_reset_and_hazards.md R244). -/
def MarkerFree (p : Bytes) : Prop :=
  ∀ i, i + 4 ≤ p.length → Wire.le32 p i ∉ Wire.frameMarkers

/-- The UTF-8 sequence of a character, by the ranges of its number. PRESUMED, log entry 8. -/
def utf8Bytes (c : Char) : Bytes :=
  let n := c.toNat
  let tail (i : Nat) : Byte := BitVec.ofNat 8 (0x80 + i % 64)
  if n < 0x80 then [BitVec.ofNat 8 n]
  else if n < 0x800 then [BitVec.ofNat 8 (0xC0 + n / 64), tail n]
  else if n < 0x10000 then [BitVec.ofNat 8 (0xE0 + n / 4096), tail (n / 64), tail n]
  else [BitVec.ofNat 8 (0xF0 + n / 262144), tail (n / 4096), tail (n / 64), tail n]

/-- The values that the default `ACK_TRUTH` of 92_eei_decisions.md D11 takes as false. PRESUMED, log entry 6: negative
zero, the second float, is one of them. -/
def falseValues : List Value :=
  [.bool false, .null, .undefined, .int 0, .float 0#64, .float 0x8000000000000000#64, .text [], .bytes [],
    .array .nil, .map .nil]

/-- A delivered envelope is what 10_state.md R32 says of one of its kind. -/
def EnvelopeOk (k : Kind) (e : Envelope) : Prop :=
  e.kind = k ∧ (e.hashValid = true ↔ e.receivedCode = e.calculatedCode) ∧
    match k with
    | .header => e.packetId = -1
    | .chunk => 0 ≤ e.packetId ∧ e.packetId < 4294967296

/-- The invariant of every step. -/
structure Inv (s : State) : Prop where
  /-- 10_state.md R22: outside a drain at most 3 bytes wait in `buf`. -/
  buf_short : s.phase ≠ .drain → s.buf.length ≤ 3
  /-- 10_state.md R23: no frame is open, nothing is accumulated. -/
  acc_idle : s.fsm = .idle → s.acc = []
  /-- 10_state.md R24. -/
  line_cap : s.line.length ≤ s.cfg.diagCap
  /-- 10_state.md R24. -/
  line_open : Wire.newline ∉ s.line
  /-- 10_state.md R26. -/
  queue_cap : s.queue.length ≤ Config.qcap
  /-- 10_state.md R26: every block is non-empty. -/
  blocks_nonempty : [] ∉ s.queue
  /-- 41_intake.md R110: so is a held block. -/
  held_nonempty : s.held ≠ some []
  /-- An exited Reader holds nothing: by 41_intake.md R111 after a stop, by log entry 12 after a read error. -/
  held_running : s.reader = .exited → s.held = none
  /-- 10_state.md R32. -/
  envs_ok : ∀ ke ∈ s.envs, EnvelopeOk ke.1 ke.2
  /-- 45_ack.md R192: every failed write is counted once and logged once. -/
  txfail_logged : s.txfail = s.logs.count .txWriteError
  /-- 45_ack.md R194: one completion query per delivered Chunk envelope. -/
  queries : s.cq.length = (s.envs.filter fun ke => decide (ke.1 = .chunk)).length
  /-- 92_eei_decisions.md D29. -/
  acc_cap : ∀ c, s.cfg.accCap = some c → s.acc.length ≤ c
  /-- 92_eei_decisions.md D29. -/
  buf_cap : ∀ c, s.cfg.bufCap = some c → s.buf.length ≤ c

/-- The agents that take steps of their own (10_state.md R20). -/
inductive Agent where
  | processor
  | reader
  | supervisor
  deriving DecidableEq, Repr

/-- Whether an agent's guard holds: whether it has a step that changes state (41_intake.md R110-R118; 60_exceptions.md
R219). A stuck Processor is not enabled. -/
def enabled (s : State) : Agent → Bool
  | .processor =>
    match s.phase with
    | .poll =>
      s.stop ||
        match s.queue with
        | [] => false
        | blk :: _ => !overCap s.cfg.bufCap (s.buf.length + blk.length)
    | .drain =>
      decide (s.buf.length < 4) ||
        match decodeWindow (peek4 s) with
        | .opData _ _ => decide (s.fsm = .idle) || !decide (s.cfg.accCap = some s.acc.length)
        | _ => true
    | .stopped => false
  | .reader =>
    decide (s.reader = .running) &&
      (s.stop ||
        match s.held with
        | some _ => decide (s.queue.length < Config.qcap)
        | none => !s.rx.isEmpty)
  | .supervisor => decide (s.reader = .exited) && !s.stop

end Sys2Proof.Machine
end

