-- ==== Sys2Proof/Certificates/Slice0/Obligations.lean ====
section
/-! DEFINITION. The statements for the provers. -/

open Sys2Proof Sys2Proof.Machine

/-! ### Encodings -/

/-- R72: every window of 4 bytes selects exactly one operation, by the table's words, and consumes 4 bytes for a marker
and 1 otherwise; the byte an `OP_DATA` carries is the window's first. -/
def Obligations.EveryWindowSelectsItsOperation : Prop :=
  ∀ b : Bytes, 4 ≤ b.length →
    (Wire.le32 b 0 = 0x090A0B0C#32 → decode .rx b = .ok (.opHs, b.drop 4)) ∧
    (Wire.le32 b 0 = 0x0D0E0F10#32 → decode .rx b = .ok (.opHe, b.drop 4)) ∧
    (Wire.le32 b 0 = 0x01020304#32 → decode .rx b = .ok (.opCs, b.drop 4)) ∧
    (Wire.le32 b 0 = 0x05060708#32 → decode .rx b = .ok (.opCe, b.drop 4)) ∧
    (Wire.le32 b 0 ∉ [0x090A0B0C#32, 0x0D0E0F10#32, 0x01020304#32, 0x05060708#32] →
      ∃ x ahead, b.head? = some x ∧ decode .rx b = .ok (.opData x ahead, b.drop 1))

/-- Decoding what is encoded, followed by any bytes, gives the operation back and consumes what R72 and R79 say. -/
def Obligations.DecodeInvertsEncode : Prop :=
  ∀ (i : Instr) (rest : Bytes), i.wf = true →
    decode i.direction (encode i ++ rest) = .ok (i, (encode i ++ rest).drop i.consumes)

/-- Encoding what is decoded gives the bytes back: no bit of a window or of an ACK frame is dropped. -/
def Obligations.EncodeInvertsDecode : Prop :=
  (∀ (b : Bytes) (i : Instr) (r : Bytes), b.length = 4 → decode .rx b = .ok (i, r) → encode i = b) ∧
  (∀ (b : Bytes) (i : Instr) (r : Bytes), b.length = 12 → decode .tx b = .ok (i, r) → encode i = b)

/-- Whatever decodes is well formed and belongs to the direction it was read in. -/
def Obligations.DecodedOperationsAreWellFormed : Prop :=
  ∀ (d : Direction) (b : Bytes) (i : Instr) (r : Bytes),
    decode d b = .ok (i, r) → i.wf = true ∧ i.direction = d

/-- A few words written out from the tables of R70, R72 and R79 decode to the operations they stand for. -/
def Obligations.SampleWordsDecode : Prop :=
  decodeTableWord 32 0x090A0B0C = some .opHs ∧
  decodeTableWord 32 0x0D0E0F10 = some .opHe ∧
  decodeTableWord 32 0x01020304 = some .opCs ∧
  decodeTableWord 32 0x05060708 = some .opCe ∧
  decodeTableWord 32 0x0A0B0C55 = some (.opData 0x55#8 0x0A0B0C#24) ∧
  decodeTableWord 96 0x1D1E1F2004D44C65191A1B1C = some (.ackFrame 0x04D44C65#32)

/-- R71: the four markers are pairwise distinct and no proper suffix of one is a proper prefix of one. -/
def Obligations.MarkersAreDistinctAndOverlapFree : Prop :=
  Wire.frameMarkers.Nodup ∧
  ∀ m ∈ Wire.frameMarkers, ∀ m' ∈ Wire.frameMarkers, ∀ k ∈ [1, 2, 3],
    (Wire.u32le m).drop (4 - k) ≠ (Wire.u32le m').take k

/-- R9, R53: reads are little-endian and unsigned. -/
def Obligations.ReadsAreLittleEndian : Prop :=
  ∀ (b : Bytes) (o : Nat),
    (Wire.le16 b o).toNat = (Wire.byteAt b o).toNat + 256 * (Wire.byteAt b (o + 1)).toNat ∧
    (Wire.le32 b o).toNat =
      (Wire.byteAt b o).toNat + 2 ^ 8 * (Wire.byteAt b (o + 1)).toNat +
        2 ^ 16 * (Wire.byteAt b (o + 2)).toNat + 2 ^ 24 * (Wire.byteAt b (o + 3)).toNat

/-! ### The operations of the Frame Assembler -/

/-- R132: `OP_HS` is the window `0x090A0B0C`; it completes in every state with the same effect, and changes nothing
else. -/
def Obligations.OpHsOpensHeaderFrame : Prop :=
  decodeWindow 0x090A0B0C#32 = .opHs ∧
  ∀ s : State, exec .opHs s =
    .next { s with buf := s.buf.drop 4, pos := s.pos + 4, acc := [], fsm := .receivingHeader }

/-- R134: `OP_CS` is the window `0x01020304`; it completes in every state with the same effect, and changes nothing
else. -/
def Obligations.OpCsOpensChunkFrame : Prop :=
  decodeWindow 0x01020304#32 = .opCs ∧
  ∀ s : State, exec .opCs s =
    .next { s with buf := s.buf.drop 4, pos := s.pos + 4, acc := [], fsm := .receivingChunk }

/-- R133: `OP_HE` is the window `0x0D0E0F10`; it completes in every state: it hands an open Header frame's payload to
`ProcessFrame` and otherwise consumes its 4 bytes and changes nothing else. -/
def Obligations.OpHeFinalizesHeaderFrame : Prop :=
  decodeWindow 0x0D0E0F10#32 = .opHe ∧
  ∀ s : State,
    (s.fsm = .receivingHeader → exec .opHe s =
      .next (processFrame .header s.acc
        { s with buf := s.buf.drop 4, pos := s.pos + 4, acc := [], fsm := .idle })) ∧
    (s.fsm ≠ .receivingHeader → exec .opHe s = .next { s with buf := s.buf.drop 4, pos := s.pos + 4 })

/-- R135: `OP_CE` is the window `0x05060708`; it completes in every state: it hands an open Chunk frame's payload to
`ProcessFrame` and otherwise consumes its 4 bytes and changes nothing else. -/
def Obligations.OpCeFinalizesChunkFrame : Prop :=
  decodeWindow 0x05060708#32 = .opCe ∧
  ∀ s : State,
    (s.fsm = .receivingChunk → exec .opCe s =
      .next (processFrame .chunk s.acc
        { s with buf := s.buf.drop 4, pos := s.pos + 4, acc := [], fsm := .idle })) ∧
    (s.fsm ≠ .receivingChunk → exec .opCe s = .next { s with buf := s.buf.drop 4, pos := s.pos + 4 })

/-- R136: `OP_DATA` is every window that is no marker's, and carries the window's first byte; it discards that byte in
`Idle` and accumulates it in a Receiving state, and changes nothing else. Only at a finite `ACC_CAP` reached has it no
next state. -/
def Obligations.OpDataMovesOneByte : Prop :=
  (∀ w : Word, w ∉ Wire.frameMarkers → ∃ ahead, decodeWindow w = .opData (w.extractLsb' 0 8) ahead) ∧
  ∀ (s : State) (x : Byte) (ahead : BitVec 24),
    (s.fsm = .idle → exec (.opData x ahead) s = .next { s with buf := s.buf.drop 1, pos := s.pos + 1 }) ∧
    (s.fsm ≠ .idle → s.cfg.accCap ≠ some s.acc.length → exec (.opData x ahead) s =
      .next { s with buf := s.buf.drop 1, pos := s.pos + 1, acc := s.acc ++ [x] }) ∧
    (s.fsm ≠ .idle → s.cfg.accCap = some s.acc.length → ∀ t, exec (.opData x ahead) s ≠ .next t)

/-- R136: in a Receiving state with a finite `ACC_CAP` reached, `OP_DATA` has no next state. That the stuck Processor is
a fault of the whole machine is the model's choice (log entry 14). -/
def Obligations.OpDataSticksAtAccCap : Prop :=
  ∀ (s : State) (x : Byte) (ahead : BitVec 24),
    s.fsm ≠ .idle → s.cfg.accCap = some s.acc.length →
      exec (.opData x ahead) s = .fault .accCapReached

/-- R79, R191, R192, R60: `ACK_FRAME` writes the 12 bytes of its code when the transport answers `Ok`; when the transport
fails after `k` bytes, the first `k` are on the wire and the failure is counted and logged. Nothing else changes. The
answer that stands in the state is the model's form (log entry 10), and so is `ACK_FRAME` as an operation of its own
(log entry 19). -/
def Obligations.AckFrameWritesTwelveBytes : Prop :=
  ∀ (s : State) (code : Word),
    let frame : Bytes := [0x1C, 0x1B, 0x1A, 0x19] ++ Wire.u32le code ++ [0x20, 0x1F, 0x1E, 0x1D]
    frame.length = 12 ∧
    (s.writeAnswer = .ok → exec (.ackFrame code) s = .next { s with tx := s.tx ++ frame }) ∧
    (∀ k : Fin 12, s.writeAnswer = .fail k → exec (.ackFrame code) s =
      .next { s with
        tx := s.tx ++ frame.take k.val
        txfail := s.txfail + 1
        logs := s.logs ++ [.txWriteError] })

/-- R131: the transition table, all 15 cells: the next `fsm`, the next `acc` and the bytes consumed. -/
def Obligations.AssemblerTransitionTable : Prop :=
  ∀ (s t : State) (i : Instr), i.direction = .rx → exec i s = .next t →
    t.buf = s.buf.drop i.consumes ∧ t.pos = s.pos + i.consumes ∧
    t.fsm = (match i, s.fsm with
      | .opHs, _ => .receivingHeader
      | .opCs, _ => .receivingChunk
      | .opHe, .receivingHeader => .idle
      | .opCe, .receivingChunk => .idle
      | _, f => f) ∧
    t.acc = (match i, s.fsm with
      | .opHs, _ => []
      | .opCs, _ => []
      | .opHe, .receivingHeader => []
      | .opCe, .receivingChunk => []
      | .opData _ _, .idle => s.acc
      | .opData x _, _ => s.acc ++ [x]
      | _, _ => s.acc)

/-- R142, R116: no operation of the assembler touches the diagnostic line, the loop's phase, the state shared with R, or
the inputs. -/
def Obligations.AssemblerLeavesTheRestAlone : Prop :=
  ∀ (s t : State) (i : Instr), exec i s = .next t →
    t.line = s.line ∧ t.phase = s.phase ∧ t.queue = s.queue ∧ t.stop = s.stop ∧ t.reader = s.reader ∧
    t.held = s.held ∧ t.rx = s.rx ∧ t.cfg = s.cfg ∧ t.viable = s.viable ∧ t.turns = s.turns ∧ t.tick = s.tick ∧
    t.writeAnswer = s.writeAnswer ∧ t.completeAnswer = s.completeAnswer

/-- R218: noise, unmatched end markers and abandoned frames put nothing on any port: an operation that finalizes no
frame leaves every output history as it was. -/
def Obligations.OnlyFinalizingReachesThePorts : Prop :=
  ∀ (s t : State) (i : Instr), i.direction = .rx →
    ¬(i = .opHe ∧ s.fsm = .receivingHeader) → ¬(i = .opCe ∧ s.fsm = .receivingChunk) →
    exec i s = .next t →
    t.tx = s.tx ∧ t.txfail = s.txfail ∧ t.envs = s.envs ∧ t.logs = s.logs ∧ t.cq = s.cq

/-! ### Finalized frames -/

/-- R212: a frame whose payload is rejected logs its reason and does nothing else beyond closing the frame: no ACK, no
delivery, no query. -/
def Obligations.MalformedFrameOnlyLogs : Prop :=
  ∀ (s : State) (r : MalformedReason),
    (s.fsm = .receivingHeader → decodePayload s.cfg .header s.acc = .malformed r → exec .opHe s =
      .next { s with
        buf := s.buf.drop 4, pos := s.pos + 4, acc := [], fsm := .idle
        logs := s.logs ++ [.malformed .header r] }) ∧
    (s.fsm = .receivingChunk → decodePayload s.cfg .chunk s.acc = .malformed r → exec .opCe s =
      .next { s with
        buf := s.buf.drop 4, pos := s.pos + 4, acc := [], fsm := .idle
        logs := s.logs ++ [.malformed .chunk r] })

/-- R137, R195, R221(c): what a frame with an envelope adds to each port, in what order, and that it changes nothing
else. The answers are those that stand in the state (log entry 10). -/
def Obligations.EnvelopeReachesThePorts : Prop :=
  ∀ (s : State) (k : Kind) (p : Bytes) (e : Envelope), decodePayload s.cfg k p = .env e →
    let sent := e.ackRequested = true ∧ e.hashValid = true
    ∃ tx txfail failure,
      processFrame k p s = { s with
        tx := s.tx ++ tx
        txfail := s.txfail + txfail
        logs := s.logs ++
          (if e.docOk then [] else [.docDecodeFailure k e.packetId]) ++
          (if e.hashValid then []
            else [.checksumMismatch k e.packetId e.receivedCode e.calculatedCode]) ++ failure
        envs := s.envs ++ [(k, e)]
        cq := s.cq ++ (if k = .chunk then [s.completeAnswer] else []) } ∧
      (¬sent → tx = [] ∧ txfail = 0 ∧ failure = []) ∧
      (sent → s.writeAnswer = .ok → tx = ackBytes e.receivedCode ∧ txfail = 0 ∧ failure = []) ∧
      (∀ n : Fin 12, sent → s.writeAnswer = .fail n →
        tx = (ackBytes e.receivedCode).take n.val ∧ txfail = 1 ∧ failure = [.txWriteError])

/-- R190: the ACK gate runs `ACK_FRAME` for the received code exactly when the envelope asks for it and verifies. -/
def Obligations.AckGateRunsAckFrame : Prop :=
  ∀ (s : State) (e : Envelope),
    (e.ackRequested = true ∧ e.hashValid = true → exec (.ackFrame e.receivedCode) s = .next (ackGate e s)) ∧
    (¬(e.ackRequested = true ∧ e.hashValid = true) → ackGate e s = s)

/-! ### The Packet Decoder and the checksum -/

/-- R182: exactly which payloads give an envelope. -/
def Obligations.EnvelopeExactlyWhenLongEnough : Prop :=
  ∀ (c : Config) (k : Kind) (p : Bytes),
    let h := match k with | .header => 0 | .chunk => 4
    (∃ e, decodePayload c k p = .env e) ↔
      h + 2 ≤ p.length ∧ h + 6 + (Wire.le16 p h).toNat ≤ p.length

/-- R171, R173, R174, R180: which of the three reasons a rejected payload gets. -/
def Obligations.RejectionReasonsInOrder : Prop :=
  ∀ (c : Config) (k : Kind) (p : Bytes),
    let h := match k with | .header => 0 | .chunk => 4
    let l := (Wire.le16 p h).toNat
    (decodePayload c k p = .malformed .tooShort ↔ p.length < h + 2) ∧
    (decodePayload c k p = .malformed .lengthOverrun ↔ h + 2 ≤ p.length ∧ p.length < h + 2 + l) ∧
    (decodePayload c k p = .malformed .codeTruncated ↔
      h + 2 + l ≤ p.length ∧ h + 2 ≤ p.length ∧ p.length < h + 2 + l + 4)

/-- R172, R175-R179: the fields of an envelope, from the payload and the configuration: the checksum under each option
of R101; the document from a decoder given as a table, the first row of the data bytes counting (the model's form, log
entry 5); `ack_requested` from the first entry of key 8 (log entry 7), under the default `ACK_TRUTH` false for exactly
the false values of D11 (negative zero among them, log entry 6). -/
def Obligations.EnvelopeFields : Prop :=
  ∀ (c : Config) (k : Kind) (p : Bytes) (e : Envelope), decodePayload c k p = .env e →
    let h := match k with | .header => 0 | .chunk => 4
    let l := (Wire.le16 p h).toNat
    let data := (p.drop (h + 2)).take l
    e.kind = k ∧ e.rawPayload = p ∧
    (k = .header → e.packetId = -1) ∧
    (k = .chunk → e.packetId = ((Wire.le32 p 0).toNat : Int)) ∧
    e.receivedCode = Wire.le32 p (h + 2 + l) ∧
    (c.checkScope = .dataOnly → e.calculatedCode = checksum c.checksum data) ∧
    (c.checkScope = .wholePrefix → e.calculatedCode = checksum c.checksum (p.take (h + 2 + l))) ∧
    (∀ d, docDecode c.docDecode data = some d → e.doc = d ∧ e.docOk = true) ∧
    (docDecode c.docDecode data = none → e.doc = c.errDoc ∧ e.docOk = false) ∧
    (docLookup e.doc 8 = none → e.ackRequested = true) ∧
    (∀ v, docLookup e.doc 8 = some v → e.ackRequested = ackTruth c.ackTruth v) ∧
    (∀ region, c.checkScope = .dataOnly ∧ region = data ∨ c.checkScope = .wholePrefix ∧ region = p.take (h + 2 + l) →
      (c.checksum = .crc32 → e.calculatedCode = crc32 region) ∧
      (c.checksum = .seededHash32 → e.calculatedCode = Config.seededHash32 region)) ∧
    (∀ front d back, c.docDecode = .table (front ++ (data, d) :: back) → (∀ r ∈ front, r.1 ≠ data) →
      e.doc = d ∧ e.docOk = true) ∧
    (∀ rows, c.docDecode = .table rows → (∀ r ∈ rows, r.1 ≠ data) → e.doc = c.errDoc ∧ e.docOk = false) ∧
    (c.docDecode = .external →
      e.doc = (Config.externalDoc data).getD c.errDoc ∧ e.docOk = (Config.externalDoc data).isSome) ∧
    ((∀ r ∈ e.doc, r.1 ≠ 8) → e.ackRequested = true) ∧
    (∀ front v back, e.doc = front ++ (8, v) :: back → (∀ r ∈ front, r.1 ≠ 8) →
      (c.ackTruth = .truthiness → (e.ackRequested = false ↔ v ∈ falseValues)) ∧
      (c.ackTruth = .external → e.ackRequested = Config.externalTruth v))

/-- R104: `hash_valid` is the equality of the two codes. -/
def Obligations.HashValidIsCodeEquality : Prop :=
  ∀ (c : Config) (k : Kind) (p : Bytes) (e : Envelope), decodePayload c k p = .env e →
    (e.hashValid = true ↔ e.receivedCode.toNat = e.calculatedCode.toNat)

/-- R178, R214: data that does not decode still gives an envelope that asks for its ACK, under a configuration R7
allows. -/
def Obligations.DecodeFailureStillRequestsAck : Prop :=
  ∀ (c : Config) (k : Kind) (p : Bytes) (e : Envelope), c.wf = true →
    decodePayload c k p = .env e → e.docOk = false → e.ackRequested = true

/-- R175: bytes after the code change nothing but `raw_payload`. -/
def Obligations.SurplusIsIgnored : Prop :=
  ∀ (c : Config) (k : Kind) (p extra : Bytes) (e : Envelope), decodePayload c k p = .env e →
    decodePayload c k (p ++ extra) = .env { e with rawPayload := p ++ extra }

/-- R75, R82: a payload laid out for any id and any data of at most 65535 bytes, with the checksum of the checked region
as its code, decodes to that id, verifies, and its document is read from exactly that data. -/
def Obligations.WellFormedPayloadDecodes : Prop :=
  ∀ (c : Config) (k : Kind) (id : Word) (data : Bytes), data.length < 65536 →
    let code := payloadCheck c k id data
    ∃ e, decodePayload c k (payloadBytes c k id data) = .env e ∧
      e.packetId = (match k with | .header => -1 | .chunk => (id.toNat : Int)) ∧
      e.receivedCode = code ∧ e.calculatedCode = code ∧ e.hashValid = true ∧
      e.doc = (docDecode c.docDecode data).getD c.errDoc ∧
      e.docOk = (docDecode c.docDecode data).isSome ∧
      e.ackRequested = ackRequested c.ackTruth e.doc

/-- R102: the check values of the option `CRC32` (log entry 4). -/
def Obligations.Crc32CheckValues : Prop :=
  crc32 [0x31, 0x32, 0x33, 0x34, 0x35, 0x36, 0x37, 0x38, 0x39] = 0xCBF43926#32 ∧
  crc32 [] = 0x00000000#32 ∧ crc32 [0xA0] = 0x04D44C65#32

/-- R106: under `CRC32` a change confined to one byte changes the code (log entry 4). -/
def Obligations.Crc32DetectsOneByteChange : Prop :=
  ∀ (front back : Bytes) (x y : Byte), x ≠ y →
    crc32 (front ++ x :: back) ≠ crc32 (front ++ y :: back)

/-! ### The diagnostic channel -/

/-- R160: one byte's feed: a newline ends and clears the line and forwards it iff its text has a prefix, a line past the
cap is cleared, any other byte is kept. Nothing else changes. The logged text, the line without its
final newline, is the model's choice of a form the spec calls not normative (log entry 24). -/
def Obligations.DiagFeedCutsLines : Prop :=
  ∀ (s : State) (b : Byte),
    let l := s.line ++ [b]
    let t := textDecode s.cfg.textDecode l
    (b = 0x0A#8 → (∃ p ∈ s.cfg.diagPrefixes, p <+: t) →
      diagFeed s b = { s with line := [], logs := s.logs ++ [.diag (stripFinalLF t)] }) ∧
    (b = 0x0A#8 → (¬∃ p ∈ s.cfg.diagPrefixes, p <+: t) → diagFeed s b = { s with line := [] }) ∧
    (b ≠ 0x0A#8 → s.cfg.diagCap < l.length → diagFeed s b = { s with line := [] }) ∧
    (b ≠ 0x0A#8 → l.length ≤ s.cfg.diagCap → diagFeed s b = { s with line := l })

/-- R142, R164: feeding any bytes changes `line` and adds `Diag` events to `logs`, and touches nothing else. -/
def Obligations.DiagFeedNeverTouchesFrameState : Prop :=
  ∀ (s : State) (blk : Bytes), ∃ line, ∃ texts : List Text,
    blk.foldl diagFeed s = { s with line := line, logs := s.logs ++ texts.map .diag }

/-- R162: the default decode, at every place of the bytes: nothing gives no text; a well-formed sequence of 1, 2, 3 or 4
bytes gives its character; a byte at which no character's sequence begins is dropped and decoding goes on behind it
(log entry 8). So ASCII bytes mixed in any order with bytes that begin no sequence give the ASCII characters. -/
def Obligations.LenientDecodeKeepsAsciiDropsIllFormed : Prop :=
  textDecode .utf8Lenient [] = [] ∧
  (∀ (c : Char) (rest : Bytes),
    textDecode .utf8Lenient (utf8Bytes c ++ rest) = c :: textDecode .utf8Lenient rest) ∧
  (∀ (x : Byte) (rest : Bytes), (∀ c : Char, ¬utf8Bytes c <+: x :: rest) →
    textDecode .utf8Lenient (x :: rest) = textDecode .utf8Lenient rest) ∧
  (∀ b : Bytes, (∀ x ∈ b, x.toNat < 0x80 ∨ (0x80 ≤ x.toNat ∧ x.toNat ≤ 0xC1) ∨ 0xF5 ≤ x.toNat) →
    textDecode .utf8Lenient b =
      (b.filter fun x => decide (x.toNat < 0x80)).map fun x => Char.ofNat x.toNat)

/-! ### The agents -/

/-- R110: with room in the queue, R's read takes a non-empty block off the transport and appends it to the queue. -/
def Obligations.ReaderPushesABlock : Prop :=
  ∀ (s : State) (ts : List Turn) (more : Nat), s.viable = true → s.reader = .running → s.stop = false →
    s.held = none → s.rx ≠ [] → s.queue.length < 1000 →
    ∃ blk rest, blk ≠ [] ∧ s.rx = blk ++ rest ∧ blk.length = min (more + 1) s.rx.length ∧
      step { s with turns := .reader (.bytes more) :: ts } =
        .next { s with turns := ts, rx := rest, queue := s.queue ++ [blk] }

/-- R110: with the queue full R holds its block, and appends it once there is room again. That a Reader that holds a
block reads nothing, and so suffers no read error whatever the transport would answer, is the model's reading (log
entry 12). -/
def Obligations.ReaderHoldsWhileQueueIsFull : Prop :=
  ∀ (s : State) (ts : List Turn) (a : ReadAnswer), s.viable = true → s.reader = .running → s.stop = false →
    (∀ more, s.held = none → s.rx ≠ [] → s.queue.length = 1000 → a = .bytes more →
      step { s with turns := .reader a :: ts } =
        .next { s with turns := ts, rx := s.rx.drop (more + 1), held := some (s.rx.take (more + 1)) }) ∧
    (∀ blk, s.held = some blk → s.queue.length = 1000 →
      step { s with turns := .reader a :: ts } = .next { s with turns := ts }) ∧
    (∀ blk, s.held = some blk → s.queue.length < 1000 →
      step { s with turns := .reader a :: ts } =
        .next { s with turns := ts, queue := s.queue ++ [blk], held := none })

/-- R111: R exits on stop and a held block is discarded; R221(e): it does so over available bytes. That it does so over a
read error too, and logs none once stop is set, is the model's reading (log entry 13). -/
def Obligations.ReaderExitsOnStop : Prop :=
  ∀ (s : State) (ts : List Turn) (a : ReadAnswer), s.viable = true → s.reader = .running → s.stop = true →
    step { s with turns := .reader a :: ts } =
      .next { s with turns := ts, reader := .exited, held := none }

/-- R112: a read error ends R and is logged, and changes nothing else. R113, R229: with no byte available R's turn changes
nothing, whatever a read would answer. That R reads only while it holds no block is the model's reading (log entry 12),
and so is that R112's read is one of available bytes (log entry 26). -/
def Obligations.ReadErrorEndsTheReader : Prop :=
  ∀ (s : State) (ts : List Turn), s.viable = true → s.reader = .running → s.stop = false → s.held = none →
    (s.rx ≠ [] → step { s with turns := .reader .error :: ts } =
      .next { s with turns := ts, reader := .exited, logs := s.logs ++ [.rxReadError] }) ∧
    (s.rx = [] → ∀ a, step { s with turns := .reader a :: ts } = .next { s with turns := ts })

/-- R114: P pops the first block, runs `DiagFeed` on each of its bytes, first to last, appends it to `buf` and begins to
drain. A block that does not fit a finite `BUF_CAP` has no pop; that the stuck Processor is then a fault of the whole
machine is the model's choice (log entry 14). -/
def Obligations.ProcessorPopsABlock : Prop :=
  ∀ (s : State) (ts : List Turn) (w : WriteAnswer) (c : Bool) (blk : Bytes) (q : List Bytes),
    s.viable = true → s.phase = .poll → s.stop = false → s.queue = blk :: q →
    ((∀ cap, s.cfg.bufCap = some cap → s.buf.length + blk.length ≤ cap) →
      ∃ t, step { s with turns := .processor w c :: ts } = .next t ∧
        t.queue = q ∧ t.buf = s.buf ++ blk ∧ t.phase = .drain ∧
        t.line = (blk.foldl diagFeed s).line ∧ t.logs = (blk.foldl diagFeed s).logs ∧
        t.fsm = s.fsm ∧ t.acc = s.acc ∧ t.pos = s.pos ∧ t.stop = s.stop ∧ t.reader = s.reader ∧ t.held = s.held ∧
        t.rx = s.rx ∧ t.tx = s.tx ∧ t.txfail = s.txfail ∧ t.envs = s.envs ∧ t.cq = s.cq ∧ t.cfg = s.cfg ∧
        t.turns = ts ∧ t.tick = s.tick ∧ t.viable = s.viable) ∧
    (∀ cap, s.cfg.bufCap = some cap → cap < s.buf.length + blk.length →
      step { s with turns := .processor w c :: ts } = .fault .bufCapReached)

/-- R115: with fewer than 4 bytes left the drain ends, and the bytes stay. -/
def Obligations.DrainEndsBelowFourBytes : Prop :=
  ∀ (s : State) (ts : List Turn) (w : WriteAnswer) (c : Bool), s.viable = true → s.phase = .drain →
    s.buf.length < 4 →
    step { s with turns := .processor w c :: ts } =
      .next { s with turns := ts, writeAnswer := w, completeAnswer := c, phase := .poll }

/-- R117, R221(d): at `Poll` stop wins, even over a waiting block; nothing is processed. -/
def Obligations.StopWinsAtPoll : Prop :=
  ∀ (s : State) (ts : List Turn) (w : WriteAnswer) (c : Bool), s.viable = true → s.phase = .poll →
    s.stop = true →
    step { s with turns := .processor w c :: ts } =
      .next { s with turns := ts, writeAnswer := w, completeAnswer := c, phase := .stopped }

/-- R219: S raises stop once R has exited, and does nothing else; while R runs it does nothing. -/
def Obligations.SupervisorRaisesStop : Prop :=
  ∀ (s : State) (ts : List Turn), s.viable = true →
    (s.reader = .exited → step { s with turns := .supervisor :: ts } = .next { s with turns := ts, stop := true }) ∧
    (s.reader = .running → step { s with turns := .supervisor :: ts } = .next { s with turns := ts })

/-- R113, R118, R229: an agent whose guard does not hold changes nothing when it is scheduled but for the answers of
the turn. That such a turn is a step is the model's choice (log entry 9); that a Reader
holding a block for a full queue suffers no read error is its reading (log entry 12), and so is that one with no byte
available suffers none (log entry 26). -/
def Obligations.DisabledAgentsChangeNothing : Prop :=
  ∀ (s : State) (ts : List Turn), s.viable = true →
    (∀ w c, s.phase = .stopped ∨ (s.phase = .poll ∧ s.stop = false ∧ s.queue = []) →
      step { s with turns := .processor w c :: ts } =
        .next { s with turns := ts, writeAnswer := w, completeAnswer := c }) ∧
    (∀ a, enabled s .reader = false →
      step { s with turns := .reader a :: ts } = .next { s with turns := ts }) ∧
    (enabled s .supervisor = false → step { s with turns := .supervisor :: ts } = .next { s with turns := ts })

/-- A step of a scheduled Processor in its drain is `exec` of the operation its lookahead decodes to (R116, R130), on the
state with the turn taken and its answers in place; and a next state has consumed exactly that operation's bytes. -/
def Obligations.StepRunsTheDecodedOperation : Prop :=
  ∀ (s : State) (ts : List Turn) (w : WriteAnswer) (c : Bool) (i : Instr) (rest : Bytes),
    s.viable = true → s.turns = .processor w c :: ts → s.phase = .drain → decode .rx s.buf = .ok (i, rest) →
    step s = exec i { s with turns := ts, writeAnswer := w, completeAnswer := c } ∧
    ∀ t, step s = .next t → t.buf = rest

/-! ### Rules of the whole machine -/

/-- R37: the state after reset. -/
def Obligations.ResetValues : Prop :=
  State.reset.fsm = .idle ∧ State.reset.buf = [] ∧ State.reset.acc = [] ∧ State.reset.line = [] ∧
  State.reset.queue = [] ∧ State.reset.phase = .poll ∧ State.reset.stop = false ∧
  State.reset.reader = .running ∧ State.reset.tx = [] ∧ State.reset.envs = [] ∧ State.reset.logs = [] ∧
  State.reset.cq = [] ∧ State.reset.txfail = 0 ∧ State.reset.pos = 0

/-- The invariant holds at reset, under a configuration R7 allows. -/
def Obligations.ResetMeetsInvariant : Prop :=
  Inv State.reset ∧ State.reset.cfg.wf = true

/-- Every step keeps the invariant (R22-R24, R26, R32, R192, R194 and the capacities of D29). That an exited Reader holds
no block is R111 after a stop, and after a read error the model's reading (log entry 12). -/
def Obligations.StepKeepsInvariant : Prop :=
  ∀ s t : State, Inv s → step s = .next t → Inv t

/-- R33: no step removes an entry of an output history. -/
def Obligations.OutputsOnlyGrow : Prop :=
  ∀ s t : State, step s = .next t →
    s.tx <+: t.tx ∧ s.txfail ≤ t.txfail ∧ s.envs <+: t.envs ∧ s.logs <+: t.logs ∧ s.cq <+: t.cq ∧ s.pos ≤ t.pos

/-- R7, R68: no step changes the configuration. -/
def Obligations.ConfigurationNeverChanges : Prop :=
  ∀ s t : State, step s = .next t → t.cfg = s.cfg

/-- R27, R28, R229: stop, an exited Reader and a stopped Processor stay so; a stopped Processor's registers and its
ports but for the Reader's log never change again. -/
def Obligations.TerminalStatesStay : Prop :=
  ∀ s t : State, step s = .next t →
    (s.stop = true → t.stop = true) ∧
    (s.reader = .exited → t.reader = .exited) ∧
    (s.phase = .stopped → t.phase = .stopped ∧ t.fsm = s.fsm ∧ t.buf = s.buf ∧ t.acc = s.acc ∧ t.line = s.line ∧
      t.pos = s.pos ∧ t.tx = s.tx ∧ t.txfail = s.txfail ∧ t.envs = s.envs ∧ t.cq = s.cq ∧
      (t.logs = s.logs ∨ t.logs = s.logs ++ [.rxReadError]))

/-- R62: bytes are consumed in arrival order, none lost, repeated or reordered: a step consumes exactly as many as `pos`
advances from the head of the pending stream and adds what its turn brings at the tail. The discard of a held block on
stop (R111) is the one exception; that a read error discards none is the model's reading (log entry 12). -/
def Obligations.StreamIsConsumedInOrder : Prop :=
  ∀ (s t : State) (turn : Turn) (ts : List Turn), s.turns = turn :: ts → step s = .next t →
    (s.stop = false ∨ s.held = none) →
    s.pos ≤ t.pos ∧ pendingStream t = (pendingStream s).drop (t.pos - s.pos) ++ arrivals turn

/-- With no finite capacity set and a transport found, every step has a next state (93 I10: with the default none the
stuck states never happen). -/
def Obligations.DefaultCapacitiesNeverStick : Prop :=
  ∀ s : State, s.viable = true → s.cfg.accCap = none → s.cfg.bufCap = none → ∃ t, step s = .next t

/-- R217: an engine without a transport never leaves its state. That the model says so by a fault is its own choice (log
entry 15). -/
def Obligations.UnsupportedEnvironmentNeverStarts : Prop :=
  ∀ s : State, s.viable = false → step s = .fault .unsupportedEnvironment

/-- R116: each step of a drain shortens `buf` by 1 or 4 bytes and stays in the drain, and every drain ends: within
`|buf| + 1` steps of P it is back at `Poll` with at most 3 bytes left. -/
def Obligations.EveryDrainEnds : Prop :=
  ∀ (s : State) (f : Answers), s.viable = true → s.cfg.accCap = none → s.phase = .drain →
    ∃ n t, n ≤ s.buf.length + 1 ∧ processorRun f n s = .next t ∧ t.phase = .poll ∧ t.buf.length ≤ 3

/-- R139: every marker occurrence that has reached `buf` is acted on: P comes to a step whose position is the marker's
first byte and whose lookahead is that marker. -/
def Obligations.EveryMarkerIsReached : Prop :=
  ∀ (s : State) (f : Answers) (front rest : Bytes) (m : Word), s.viable = true → s.cfg.accCap = none →
    s.phase = .drain → m ∈ Wire.frameMarkers → s.buf = front ++ Wire.u32le m ++ rest →
    ∃ n t, processorRun f n s = .next t ∧ t.phase = .drain ∧ t.pos = s.pos + front.length ∧
      t.buf = Wire.u32le m ++ rest ∧ peek4 t = m

/-- R140, R141, R244: a frame whose payload holds no marker window is delivered intact to `ProcessFrame`, whatever the
payload's bytes and whatever state the frame finds the assembler in. -/
def Obligations.MarkerFreeFrameIsProcessedIntact : Prop :=
  ∀ (s : State) (f : Answers) (k : Kind) (p rest : Bytes), s.viable = true → s.cfg.accCap = none →
    s.phase = .drain → MarkerFree p →
    s.buf = wireFrame k p ++ rest →
    processorRun f (p.length + 2) s =
      .next (processFrame k p { s with
        fsm := .idle
        acc := []
        buf := rest
        pos := s.pos + p.length + 8
        turns := []
        writeAnswer := (f (s.pos + p.length + 4)).1
        completeAnswer := (f (s.pos + p.length + 4)).2 })

/-- R82, R190, R193, R194 (the source's Scenario A for every frame): a well-formed frame of any id and data, with no
marker window in its payload, whose document asks for its ACK and whose ACK write succeeds, is delivered once, verified,
and acknowledged with exactly the 12 bytes of its code, whatever state it finds the assembler in. -/
def Obligations.WellFormedFrameIsDeliveredAndAcknowledged : Prop :=
  ∀ (s : State) (f : Answers) (k : Kind) (id : Word) (data rest : Bytes), s.viable = true →
    s.cfg.accCap = none → s.phase = .drain → data.length < 65536 →
    MarkerFree (payloadBytes s.cfg k id data) → s.buf = frameBytes s.cfg k id data ++ rest →
    ackRequested s.cfg.ackTruth ((docDecode s.cfg.docDecode data).getD s.cfg.errDoc) = true →
    let p := payloadBytes s.cfg k id data
    (f (s.pos + p.length + 4)).1 = .ok →
    ∃ t e, processorRun f (p.length + 2) s = .next t ∧
      t.envs = s.envs ++ [(k, e)] ∧ e.rawPayload = p ∧ e.hashValid = true ∧
      e.packetId = (match k with | .header => -1 | .chunk => (id.toNat : Int)) ∧
      t.tx = s.tx ++ ackBytes (payloadCheck s.cfg k id data) ∧ t.txfail = s.txfail ∧
      t.cq = s.cq ++ (if k = .chunk then [(f (s.pos + p.length + 4)).2] else []) ∧
      t.fsm = .idle ∧ t.acc = [] ∧ t.buf = rest

/-- R243: after a start marker nothing of the past matters: two engines of one configuration that differ only in what
they were receiving, in their ports and in their diagnostic line make the same frame registers and add the same
envelopes, ACK bytes and queries from there on. -/
def Obligations.StartMarkerForgetsThePast : Prop :=
  ∀ (s s' t : State) (turns : List Turn) (m : Word) (rest : Bytes),
    m = Wire.headerStart ∨ m = Wire.chunkStart →
    s.viable = true → s'.viable = true → s'.cfg = s.cfg → s.phase = .drain → s'.phase = .drain →
    s.buf = Wire.u32le m ++ rest → s'.buf = s.buf → s'.queue = s.queue → s'.stop = s.stop →
    turns ≠ [] → (∀ u ∈ turns, ∃ w c, u = .processor w c) →
    Sys2Proof.core.run turns.length { s with turns := turns } = .next t →
    ∃ t' envs tx cq, Sys2Proof.core.run turns.length { s' with turns := turns } = .next t' ∧
      t'.fsm = t.fsm ∧ t'.acc = t.acc ∧ t'.buf = t.buf ∧ t'.phase = t.phase ∧
      t.envs = s.envs ++ envs ∧ t'.envs = s'.envs ++ envs ∧
      t.tx = s.tx ++ tx ∧ t'.tx = s'.tx ++ tx ∧
      t.cq = s.cq ++ cq ∧ t'.cq = s'.cq ++ cq

/-- R196: if every ACK write succeeds, `tx` is the concatenation of the ACK frames of the delivered envelopes that ask
for one and verify, in delivery order: every step in which no write fails keeps that, whatever answer it brings or
finds. -/
def Obligations.TxIsTheAcksOfTheEnvelopes : Prop :=
  ∀ s t : State, step s = .next t → t.txfail = s.txfail →
    s.tx = ackStream s.envs → t.tx = ackStream t.envs

/-- R119: block boundaries carry no meaning. Two runs of P over the same bytes in different blocks, answered alike at
each stream position, agree when all has been popped and drained, and so do the frame events and the diagnostic events
of `logs`, each in its own order. -/
def Obligations.BlockBoundariesDoNotMatter : Prop :=
  ∀ (s t t' : State) (f : Answers) (q q' : List Bytes) (n n' : Nat),
    s.phase = .poll → s.stop = false → q.flatten = q'.flatten →
    processorRun f n { s with queue := q } = .next t → t.phase = .poll → t.queue = [] →
    processorRun f n' { s with queue := q' } = .next t' → t'.phase = .poll → t'.queue = [] →
    s.buf.length ≤ 3 →
    t'.fsm = t.fsm ∧ t'.acc = t.acc ∧ t'.buf = t.buf ∧ t'.line = t.line ∧ t'.pos = t.pos ∧
    t'.envs = t.envs ∧ t'.tx = t.tx ∧ t'.txfail = t.txfail ∧ t'.cq = t.cq ∧
    t'.logs.filter (fun e => decide (eventCode e = 0)) = t.logs.filter (fun e => decide (eventCode e = 0)) ∧
    t'.logs.filter (fun e => decide (eventCode e ≠ 0)) = t.logs.filter (fun e => decide (eventCode e ≠ 0))

/-! ### Codes -/

/-- R211: the numeric codes of the events and of the unsupported environment. -/
def Obligations.EventCodes : Prop :=
  (∀ t, eventCode (.diag t) = 0) ∧ (∀ k, eventCode (.malformed k .tooShort) = 1) ∧
  (∀ k, eventCode (.malformed k .lengthOverrun) = 2) ∧ (∀ k, eventCode (.malformed k .codeTruncated) = 3) ∧
  (∀ k i r c, eventCode (.checksumMismatch k i r c) = 4) ∧ (∀ k i, eventCode (.docDecodeFailure k i) = 5) ∧
  eventCode .txWriteError = 6 ∧ eventCode .rxReadError = 7 ∧ faultCode .unsupportedEnvironment = some 8

/-- R21: the 2-bit encoding of `fsm`; every state has one, each is read back, and 3 stands for none. -/
def Obligations.FsmEncoding : Prop :=
  fsmCode .idle = 0#2 ∧ fsmCode .receivingHeader = 1#2 ∧ fsmCode .receivingChunk = 2#2 ∧
  (∀ f, fsmOfCode (fsmCode f) = some f) ∧ fsmOfCode 3#2 = none
end

