-- ==== Sys2Proof/Laws/Bytes.lean ====
section
/-! SUPPORT. Little-endian reads and writes undo each other, and a read inside a list does not see what follows it. -/

namespace Sys2Proof.Wire

@[simp] theorem u16le_length (v : Half) : (u16le v).length = 2 := rfl
@[simp] theorem u32le_length (v : Word) : (u32le v).length = 4 := rfl

@[simp] theorem byteAt_cons_zero (x : Byte) (b : Bytes) : byteAt (x :: b) 0 = x := rfl
@[simp] theorem byteAt_cons_succ (x : Byte) (b : Bytes) (i : Nat) : byteAt (x :: b) (i + 1) = byteAt b i := rfl

theorem byteAt_append_left {b : Bytes} {i : Nat} (c : Bytes) (h : i < b.length) :
    byteAt (b ++ c) i = byteAt b i := by
  exact List.getD_append _ _ _ _ h

theorem byteAt_append_right {b : Bytes} {i : Nat} (c : Bytes) (h : b.length ≤ i) :
    byteAt (b ++ c) i = byteAt c (i - b.length) := by
  exact List.getD_append_right _ _ _ _ h

theorem le16_append_left {b : Bytes} {o : Nat} (c : Bytes) (h : o + 2 ≤ b.length) :
    le16 (b ++ c) o = le16 b o := by
  unfold le16
  rw [byteAt_append_left c (by omega), byteAt_append_left c (by omega)]

theorem le32_append_left {b : Bytes} {o : Nat} (c : Bytes) (h : o + 4 ≤ b.length) :
    le32 (b ++ c) o = le32 b o := by
  unfold le32
  rw [byteAt_append_left c (by omega), byteAt_append_left c (by omega), byteAt_append_left c (by omega),
    byteAt_append_left c (by omega)]

theorem le16_append_right {b : Bytes} {o : Nat} (c : Bytes) (h : b.length ≤ o) :
    le16 (b ++ c) o = le16 c (o - b.length) := by
  unfold le16
  rw [byteAt_append_right c (by omega), byteAt_append_right c h, show o + 1 - b.length = o - b.length + 1 by omega]

theorem le32_append_right {b : Bytes} {o : Nat} (c : Bytes) (h : b.length ≤ o) :
    le32 (b ++ c) o = le32 c (o - b.length) := by
  unfold le32
  rw [byteAt_append_right c (by omega), byteAt_append_right c (by omega), byteAt_append_right c (by omega),
    byteAt_append_right c h, show o + 1 - b.length = o - b.length + 1 by omega,
    show o + 2 - b.length = o - b.length + 2 by omega, show o + 3 - b.length = o - b.length + 3 by omega]

/-- Two words of the same four bytes are the same word. -/
theorem le32_ext {w v : Word} (h0 : w.extractLsb' 0 8 = v.extractLsb' 0 8)
    (h1 : w.extractLsb' 8 8 = v.extractLsb' 8 8) (h2 : w.extractLsb' 16 8 = v.extractLsb' 16 8)
    (h3 : w.extractLsb' 24 8 = v.extractLsb' 24 8) : w = v := by
  apply BitVec.eq_of_toNat_eq
  have e0 := congrArg BitVec.toNat h0
  have e1 := congrArg BitVec.toNat h1
  have e2 := congrArg BitVec.toNat h2
  have e3 := congrArg BitVec.toNat h3
  simp only [BitVec.extractLsb'_toNat, Nat.shiftRight_eq_div_pow] at e0 e1 e2 e3
  have := w.isLt
  have := v.isLt
  omega

theorem toNat_cat {n m : Nat} (x : BitVec n) (y : BitVec m) : (x ++ y).toNat = x.toNat * 2 ^ m + y.toNat := by
  rw [BitVec.toNat_append, ← Nat.shiftLeft_add_eq_or_of_lt y.isLt, Nat.shiftLeft_eq]

/-- A word written is read back. -/
theorem le32_u32le_append (w : Word) (r : Bytes) : le32 (u32le w ++ r) 0 = w := by
  apply BitVec.eq_of_toNat_eq
  simp only [le32, u32le, List.cons_append, byteAt_cons_zero, byteAt_cons_succ, toNat_cat,
    BitVec.extractLsb'_toNat, Nat.shiftRight_eq_div_pow]
  have := w.isLt
  omega

theorem le16_u16le_append (v : Half) (r : Bytes) : le16 (u16le v ++ r) 0 = v := by
  apply BitVec.eq_of_toNat_eq
  simp only [le16, u16le, List.cons_append, byteAt_cons_zero, byteAt_cons_succ, toNat_cat,
    BitVec.extractLsb'_toNat, Nat.shiftRight_eq_div_pow]
  have := v.isLt
  omega

/-- Four bytes read as a word are written back. -/
theorem u32le_le32_cons (a b c d : Byte) (r : Bytes) : u32le (le32 (a :: b :: c :: d :: r) 0) = [a, b, c, d] := by
  have ha := a.isLt
  have hb := b.isLt
  have hc := c.isLt
  have hd := d.isLt
  simp only [u32le, le32, byteAt_cons_zero, byteAt_cons_succ, List.cons.injEq, and_true]
  refine ⟨?_, ?_, ?_, ?_⟩ <;> apply BitVec.eq_of_toNat_eq <;>
    simp only [BitVec.extractLsb'_toNat, toNat_cat, Nat.shiftRight_eq_div_pow] <;> omega

theorem bytesOfNat_length (n w : Nat) : (bytesOfNat n w).length = n := by
  induction n generalizing w with
  | zero => rfl
  | succ n ih => simp [bytesOfNat, ih]

end Sys2Proof.Wire

namespace Sys2Proof

@[simp] theorem ackBytes_length (c : Word) : (ackBytes c).length = 12 := rfl

/-- What the lookahead can select: a marker's operation for its word, `OP_DATA` for every other. -/
theorem decodeWindow_cases (w : Word) :
    (w = Wire.headerStart ∧ decodeWindow w = .opHs) ∨ (w = Wire.headerEnd ∧ decodeWindow w = .opHe) ∨
    (w = Wire.chunkStart ∧ decodeWindow w = .opCs) ∨ (w = Wire.chunkEnd ∧ decodeWindow w = .opCe) ∨
    (w ∉ Wire.frameMarkers ∧ decodeWindow w = .opData (w.extractLsb' 0 8) (w.extractLsb' 8 24)) := by
  unfold decodeWindow
  split
  · exact .inl ⟨‹_›, rfl⟩
  split
  · exact .inr (.inl ⟨‹_›, rfl⟩)
  split
  · exact .inr (.inr (.inl ⟨‹_›, rfl⟩))
  split
  · exact .inr (.inr (.inr (.inl ⟨‹_›, rfl⟩)))
  · exact .inr (.inr (.inr (.inr ⟨by simp [Wire.frameMarkers, *], rfl⟩)))

/-- The lookahead never selects the transmit frame. -/
theorem decodeWindow_direction (w : Word) : (decodeWindow w).direction = .rx := by
  rcases decodeWindow_cases w with ⟨_, h⟩ | ⟨_, h⟩ | ⟨_, h⟩ | ⟨_, h⟩ | ⟨_, h⟩ <;> rw [h] <;> rfl

end Sys2Proof
end

