-- ==== Sys2Proof/Laws/State.lean ====
section
/-! SUPPORT. Every field after every named update, so that no later proof unfolds a record update. -/

namespace Sys2Proof.Machine

@[simp] theorem consume_cfg (n : Nat) (s : State) : (consume n s).cfg = s.cfg := rfl
@[simp] theorem consume_viable (n : Nat) (s : State) : (consume n s).viable = s.viable := rfl
@[simp] theorem consume_fsm (n : Nat) (s : State) : (consume n s).fsm = s.fsm := rfl
@[simp] theorem consume_buf (n : Nat) (s : State) : (consume n s).buf = s.buf.drop n := rfl
@[simp] theorem consume_acc (n : Nat) (s : State) : (consume n s).acc = s.acc := rfl
@[simp] theorem consume_line (n : Nat) (s : State) : (consume n s).line = s.line := rfl
@[simp] theorem consume_phase (n : Nat) (s : State) : (consume n s).phase = s.phase := rfl
@[simp] theorem consume_queue (n : Nat) (s : State) : (consume n s).queue = s.queue := rfl
@[simp] theorem consume_stop (n : Nat) (s : State) : (consume n s).stop = s.stop := rfl
@[simp] theorem consume_reader (n : Nat) (s : State) : (consume n s).reader = s.reader := rfl
@[simp] theorem consume_held (n : Nat) (s : State) : (consume n s).held = s.held := rfl
@[simp] theorem consume_rx (n : Nat) (s : State) : (consume n s).rx = s.rx := rfl
@[simp] theorem consume_pos (n : Nat) (s : State) : (consume n s).pos = s.pos + n := rfl
@[simp] theorem consume_tx (n : Nat) (s : State) : (consume n s).tx = s.tx := rfl
@[simp] theorem consume_txfail (n : Nat) (s : State) : (consume n s).txfail = s.txfail := rfl
@[simp] theorem consume_envs (n : Nat) (s : State) : (consume n s).envs = s.envs := rfl
@[simp] theorem consume_logs (n : Nat) (s : State) : (consume n s).logs = s.logs := rfl
@[simp] theorem consume_cq (n : Nat) (s : State) : (consume n s).cq = s.cq := rfl
@[simp] theorem consume_writeAnswer (n : Nat) (s : State) : (consume n s).writeAnswer = s.writeAnswer := rfl
@[simp] theorem consume_completeAnswer (n : Nat) (s : State) : (consume n s).completeAnswer = s.completeAnswer := rfl
@[simp] theorem consume_turns (n : Nat) (s : State) : (consume n s).turns = s.turns := rfl
@[simp] theorem consume_tick (n : Nat) (s : State) : (consume n s).tick = s.tick := rfl

@[simp] theorem appendAcc_cfg (x : Byte) (s : State) : (appendAcc x s).cfg = s.cfg := rfl
@[simp] theorem appendAcc_viable (x : Byte) (s : State) : (appendAcc x s).viable = s.viable := rfl
@[simp] theorem appendAcc_fsm (x : Byte) (s : State) : (appendAcc x s).fsm = s.fsm := rfl
@[simp] theorem appendAcc_buf (x : Byte) (s : State) : (appendAcc x s).buf = s.buf := rfl
@[simp] theorem appendAcc_acc (x : Byte) (s : State) : (appendAcc x s).acc = s.acc ++ [x] := rfl
@[simp] theorem appendAcc_line (x : Byte) (s : State) : (appendAcc x s).line = s.line := rfl
@[simp] theorem appendAcc_phase (x : Byte) (s : State) : (appendAcc x s).phase = s.phase := rfl
@[simp] theorem appendAcc_queue (x : Byte) (s : State) : (appendAcc x s).queue = s.queue := rfl
@[simp] theorem appendAcc_stop (x : Byte) (s : State) : (appendAcc x s).stop = s.stop := rfl
@[simp] theorem appendAcc_reader (x : Byte) (s : State) : (appendAcc x s).reader = s.reader := rfl
@[simp] theorem appendAcc_held (x : Byte) (s : State) : (appendAcc x s).held = s.held := rfl
@[simp] theorem appendAcc_rx (x : Byte) (s : State) : (appendAcc x s).rx = s.rx := rfl
@[simp] theorem appendAcc_pos (x : Byte) (s : State) : (appendAcc x s).pos = s.pos := rfl
@[simp] theorem appendAcc_tx (x : Byte) (s : State) : (appendAcc x s).tx = s.tx := rfl
@[simp] theorem appendAcc_txfail (x : Byte) (s : State) : (appendAcc x s).txfail = s.txfail := rfl
@[simp] theorem appendAcc_envs (x : Byte) (s : State) : (appendAcc x s).envs = s.envs := rfl
@[simp] theorem appendAcc_logs (x : Byte) (s : State) : (appendAcc x s).logs = s.logs := rfl
@[simp] theorem appendAcc_cq (x : Byte) (s : State) : (appendAcc x s).cq = s.cq := rfl
@[simp] theorem appendAcc_writeAnswer (x : Byte) (s : State) : (appendAcc x s).writeAnswer = s.writeAnswer := rfl
@[simp] theorem appendAcc_completeAnswer (x : Byte) (s : State) : (appendAcc x s).completeAnswer = s.completeAnswer := rfl
@[simp] theorem appendAcc_turns (x : Byte) (s : State) : (appendAcc x s).turns = s.turns := rfl
@[simp] theorem appendAcc_tick (x : Byte) (s : State) : (appendAcc x s).tick = s.tick := rfl

@[simp] theorem openFrame_cfg (f : Fsm) (s : State) : (openFrame f s).cfg = s.cfg := rfl
@[simp] theorem openFrame_viable (f : Fsm) (s : State) : (openFrame f s).viable = s.viable := rfl
@[simp] theorem openFrame_fsm (f : Fsm) (s : State) : (openFrame f s).fsm = f := rfl
@[simp] theorem openFrame_buf (f : Fsm) (s : State) : (openFrame f s).buf = s.buf := rfl
@[simp] theorem openFrame_acc (f : Fsm) (s : State) : (openFrame f s).acc = [] := rfl
@[simp] theorem openFrame_line (f : Fsm) (s : State) : (openFrame f s).line = s.line := rfl
@[simp] theorem openFrame_phase (f : Fsm) (s : State) : (openFrame f s).phase = s.phase := rfl
@[simp] theorem openFrame_queue (f : Fsm) (s : State) : (openFrame f s).queue = s.queue := rfl
@[simp] theorem openFrame_stop (f : Fsm) (s : State) : (openFrame f s).stop = s.stop := rfl
@[simp] theorem openFrame_reader (f : Fsm) (s : State) : (openFrame f s).reader = s.reader := rfl
@[simp] theorem openFrame_held (f : Fsm) (s : State) : (openFrame f s).held = s.held := rfl
@[simp] theorem openFrame_rx (f : Fsm) (s : State) : (openFrame f s).rx = s.rx := rfl
@[simp] theorem openFrame_pos (f : Fsm) (s : State) : (openFrame f s).pos = s.pos := rfl
@[simp] theorem openFrame_tx (f : Fsm) (s : State) : (openFrame f s).tx = s.tx := rfl
@[simp] theorem openFrame_txfail (f : Fsm) (s : State) : (openFrame f s).txfail = s.txfail := rfl
@[simp] theorem openFrame_envs (f : Fsm) (s : State) : (openFrame f s).envs = s.envs := rfl
@[simp] theorem openFrame_logs (f : Fsm) (s : State) : (openFrame f s).logs = s.logs := rfl
@[simp] theorem openFrame_cq (f : Fsm) (s : State) : (openFrame f s).cq = s.cq := rfl
@[simp] theorem openFrame_writeAnswer (f : Fsm) (s : State) : (openFrame f s).writeAnswer = s.writeAnswer := rfl
@[simp] theorem openFrame_completeAnswer (f : Fsm) (s : State) : (openFrame f s).completeAnswer = s.completeAnswer := rfl
@[simp] theorem openFrame_turns (f : Fsm) (s : State) : (openFrame f s).turns = s.turns := rfl
@[simp] theorem openFrame_tick (f : Fsm) (s : State) : (openFrame f s).tick = s.tick := rfl

@[simp] theorem closeFrame_cfg (s : State) : (closeFrame s).cfg = s.cfg := rfl
@[simp] theorem closeFrame_viable (s : State) : (closeFrame s).viable = s.viable := rfl
@[simp] theorem closeFrame_fsm (s : State) : (closeFrame s).fsm = .idle := rfl
@[simp] theorem closeFrame_buf (s : State) : (closeFrame s).buf = s.buf := rfl
@[simp] theorem closeFrame_acc (s : State) : (closeFrame s).acc = [] := rfl
@[simp] theorem closeFrame_line (s : State) : (closeFrame s).line = s.line := rfl
@[simp] theorem closeFrame_phase (s : State) : (closeFrame s).phase = s.phase := rfl
@[simp] theorem closeFrame_queue (s : State) : (closeFrame s).queue = s.queue := rfl
@[simp] theorem closeFrame_stop (s : State) : (closeFrame s).stop = s.stop := rfl
@[simp] theorem closeFrame_reader (s : State) : (closeFrame s).reader = s.reader := rfl
@[simp] theorem closeFrame_held (s : State) : (closeFrame s).held = s.held := rfl
@[simp] theorem closeFrame_rx (s : State) : (closeFrame s).rx = s.rx := rfl
@[simp] theorem closeFrame_pos (s : State) : (closeFrame s).pos = s.pos := rfl
@[simp] theorem closeFrame_tx (s : State) : (closeFrame s).tx = s.tx := rfl
@[simp] theorem closeFrame_txfail (s : State) : (closeFrame s).txfail = s.txfail := rfl
@[simp] theorem closeFrame_envs (s : State) : (closeFrame s).envs = s.envs := rfl
@[simp] theorem closeFrame_logs (s : State) : (closeFrame s).logs = s.logs := rfl
@[simp] theorem closeFrame_cq (s : State) : (closeFrame s).cq = s.cq := rfl
@[simp] theorem closeFrame_writeAnswer (s : State) : (closeFrame s).writeAnswer = s.writeAnswer := rfl
@[simp] theorem closeFrame_completeAnswer (s : State) : (closeFrame s).completeAnswer = s.completeAnswer := rfl
@[simp] theorem closeFrame_turns (s : State) : (closeFrame s).turns = s.turns := rfl
@[simp] theorem closeFrame_tick (s : State) : (closeFrame s).tick = s.tick := rfl

@[simp] theorem logEvent_cfg (e : LogEvent) (s : State) : (logEvent e s).cfg = s.cfg := rfl
@[simp] theorem logEvent_viable (e : LogEvent) (s : State) : (logEvent e s).viable = s.viable := rfl
@[simp] theorem logEvent_fsm (e : LogEvent) (s : State) : (logEvent e s).fsm = s.fsm := rfl
@[simp] theorem logEvent_buf (e : LogEvent) (s : State) : (logEvent e s).buf = s.buf := rfl
@[simp] theorem logEvent_acc (e : LogEvent) (s : State) : (logEvent e s).acc = s.acc := rfl
@[simp] theorem logEvent_line (e : LogEvent) (s : State) : (logEvent e s).line = s.line := rfl
@[simp] theorem logEvent_phase (e : LogEvent) (s : State) : (logEvent e s).phase = s.phase := rfl
@[simp] theorem logEvent_queue (e : LogEvent) (s : State) : (logEvent e s).queue = s.queue := rfl
@[simp] theorem logEvent_stop (e : LogEvent) (s : State) : (logEvent e s).stop = s.stop := rfl
@[simp] theorem logEvent_reader (e : LogEvent) (s : State) : (logEvent e s).reader = s.reader := rfl
@[simp] theorem logEvent_held (e : LogEvent) (s : State) : (logEvent e s).held = s.held := rfl
@[simp] theorem logEvent_rx (e : LogEvent) (s : State) : (logEvent e s).rx = s.rx := rfl
@[simp] theorem logEvent_pos (e : LogEvent) (s : State) : (logEvent e s).pos = s.pos := rfl
@[simp] theorem logEvent_tx (e : LogEvent) (s : State) : (logEvent e s).tx = s.tx := rfl
@[simp] theorem logEvent_txfail (e : LogEvent) (s : State) : (logEvent e s).txfail = s.txfail := rfl
@[simp] theorem logEvent_envs (e : LogEvent) (s : State) : (logEvent e s).envs = s.envs := rfl
@[simp] theorem logEvent_logs (e : LogEvent) (s : State) : (logEvent e s).logs = s.logs ++ [e] := rfl
@[simp] theorem logEvent_cq (e : LogEvent) (s : State) : (logEvent e s).cq = s.cq := rfl
@[simp] theorem logEvent_writeAnswer (e : LogEvent) (s : State) : (logEvent e s).writeAnswer = s.writeAnswer := rfl
@[simp] theorem logEvent_completeAnswer (e : LogEvent) (s : State) : (logEvent e s).completeAnswer = s.completeAnswer := rfl
@[simp] theorem logEvent_turns (e : LogEvent) (s : State) : (logEvent e s).turns = s.turns := rfl
@[simp] theorem logEvent_tick (e : LogEvent) (s : State) : (logEvent e s).tick = s.tick := rfl

@[simp] theorem deliver_cfg (k : Kind) (e : Envelope) (s : State) : (deliver k e s).cfg = s.cfg := rfl
@[simp] theorem deliver_viable (k : Kind) (e : Envelope) (s : State) : (deliver k e s).viable = s.viable := rfl
@[simp] theorem deliver_fsm (k : Kind) (e : Envelope) (s : State) : (deliver k e s).fsm = s.fsm := rfl
@[simp] theorem deliver_buf (k : Kind) (e : Envelope) (s : State) : (deliver k e s).buf = s.buf := rfl
@[simp] theorem deliver_acc (k : Kind) (e : Envelope) (s : State) : (deliver k e s).acc = s.acc := rfl
@[simp] theorem deliver_line (k : Kind) (e : Envelope) (s : State) : (deliver k e s).line = s.line := rfl
@[simp] theorem deliver_phase (k : Kind) (e : Envelope) (s : State) : (deliver k e s).phase = s.phase := rfl
@[simp] theorem deliver_queue (k : Kind) (e : Envelope) (s : State) : (deliver k e s).queue = s.queue := rfl
@[simp] theorem deliver_stop (k : Kind) (e : Envelope) (s : State) : (deliver k e s).stop = s.stop := rfl
@[simp] theorem deliver_reader (k : Kind) (e : Envelope) (s : State) : (deliver k e s).reader = s.reader := rfl
@[simp] theorem deliver_held (k : Kind) (e : Envelope) (s : State) : (deliver k e s).held = s.held := rfl
@[simp] theorem deliver_rx (k : Kind) (e : Envelope) (s : State) : (deliver k e s).rx = s.rx := rfl
@[simp] theorem deliver_pos (k : Kind) (e : Envelope) (s : State) : (deliver k e s).pos = s.pos := rfl
@[simp] theorem deliver_tx (k : Kind) (e : Envelope) (s : State) : (deliver k e s).tx = s.tx := rfl
@[simp] theorem deliver_txfail (k : Kind) (e : Envelope) (s : State) : (deliver k e s).txfail = s.txfail := rfl
@[simp] theorem deliver_envs (k : Kind) (e : Envelope) (s : State) : (deliver k e s).envs = s.envs ++ [(k, e)] := rfl
@[simp] theorem deliver_logs (k : Kind) (e : Envelope) (s : State) : (deliver k e s).logs = s.logs := rfl
@[simp] theorem deliver_cq (k : Kind) (e : Envelope) (s : State) : (deliver k e s).cq = s.cq := rfl
@[simp] theorem deliver_writeAnswer (k : Kind) (e : Envelope) (s : State) : (deliver k e s).writeAnswer = s.writeAnswer := rfl
@[simp] theorem deliver_completeAnswer (k : Kind) (e : Envelope) (s : State) : (deliver k e s).completeAnswer = s.completeAnswer := rfl
@[simp] theorem deliver_turns (k : Kind) (e : Envelope) (s : State) : (deliver k e s).turns = s.turns := rfl
@[simp] theorem deliver_tick (k : Kind) (e : Envelope) (s : State) : (deliver k e s).tick = s.tick := rfl

@[simp] theorem queryComplete_cfg (s : State) : (queryComplete s).cfg = s.cfg := rfl
@[simp] theorem queryComplete_viable (s : State) : (queryComplete s).viable = s.viable := rfl
@[simp] theorem queryComplete_fsm (s : State) : (queryComplete s).fsm = s.fsm := rfl
@[simp] theorem queryComplete_buf (s : State) : (queryComplete s).buf = s.buf := rfl
@[simp] theorem queryComplete_acc (s : State) : (queryComplete s).acc = s.acc := rfl
@[simp] theorem queryComplete_line (s : State) : (queryComplete s).line = s.line := rfl
@[simp] theorem queryComplete_phase (s : State) : (queryComplete s).phase = s.phase := rfl
@[simp] theorem queryComplete_queue (s : State) : (queryComplete s).queue = s.queue := rfl
@[simp] theorem queryComplete_stop (s : State) : (queryComplete s).stop = s.stop := rfl
@[simp] theorem queryComplete_reader (s : State) : (queryComplete s).reader = s.reader := rfl
@[simp] theorem queryComplete_held (s : State) : (queryComplete s).held = s.held := rfl
@[simp] theorem queryComplete_rx (s : State) : (queryComplete s).rx = s.rx := rfl
@[simp] theorem queryComplete_pos (s : State) : (queryComplete s).pos = s.pos := rfl
@[simp] theorem queryComplete_tx (s : State) : (queryComplete s).tx = s.tx := rfl
@[simp] theorem queryComplete_txfail (s : State) : (queryComplete s).txfail = s.txfail := rfl
@[simp] theorem queryComplete_envs (s : State) : (queryComplete s).envs = s.envs := rfl
@[simp] theorem queryComplete_logs (s : State) : (queryComplete s).logs = s.logs := rfl
@[simp] theorem queryComplete_cq (s : State) : (queryComplete s).cq = s.cq ++ [s.completeAnswer] := rfl
@[simp] theorem queryComplete_writeAnswer (s : State) : (queryComplete s).writeAnswer = s.writeAnswer := rfl
@[simp] theorem queryComplete_completeAnswer (s : State) : (queryComplete s).completeAnswer = s.completeAnswer := rfl
@[simp] theorem queryComplete_turns (s : State) : (queryComplete s).turns = s.turns := rfl
@[simp] theorem queryComplete_tick (s : State) : (queryComplete s).tick = s.tick := rfl

@[simp] theorem withAnswers_cfg (w : WriteAnswer) (c : Bool) (s : State) : (withAnswers w c s).cfg = s.cfg := rfl
@[simp] theorem withAnswers_viable (w : WriteAnswer) (c : Bool) (s : State) : (withAnswers w c s).viable = s.viable := rfl
@[simp] theorem withAnswers_fsm (w : WriteAnswer) (c : Bool) (s : State) : (withAnswers w c s).fsm = s.fsm := rfl
@[simp] theorem withAnswers_buf (w : WriteAnswer) (c : Bool) (s : State) : (withAnswers w c s).buf = s.buf := rfl
@[simp] theorem withAnswers_acc (w : WriteAnswer) (c : Bool) (s : State) : (withAnswers w c s).acc = s.acc := rfl
@[simp] theorem withAnswers_line (w : WriteAnswer) (c : Bool) (s : State) : (withAnswers w c s).line = s.line := rfl
@[simp] theorem withAnswers_phase (w : WriteAnswer) (c : Bool) (s : State) : (withAnswers w c s).phase = s.phase := rfl
@[simp] theorem withAnswers_queue (w : WriteAnswer) (c : Bool) (s : State) : (withAnswers w c s).queue = s.queue := rfl
@[simp] theorem withAnswers_stop (w : WriteAnswer) (c : Bool) (s : State) : (withAnswers w c s).stop = s.stop := rfl
@[simp] theorem withAnswers_reader (w : WriteAnswer) (c : Bool) (s : State) : (withAnswers w c s).reader = s.reader := rfl
@[simp] theorem withAnswers_held (w : WriteAnswer) (c : Bool) (s : State) : (withAnswers w c s).held = s.held := rfl
@[simp] theorem withAnswers_rx (w : WriteAnswer) (c : Bool) (s : State) : (withAnswers w c s).rx = s.rx := rfl
@[simp] theorem withAnswers_pos (w : WriteAnswer) (c : Bool) (s : State) : (withAnswers w c s).pos = s.pos := rfl
@[simp] theorem withAnswers_tx (w : WriteAnswer) (c : Bool) (s : State) : (withAnswers w c s).tx = s.tx := rfl
@[simp] theorem withAnswers_txfail (w : WriteAnswer) (c : Bool) (s : State) : (withAnswers w c s).txfail = s.txfail := rfl
@[simp] theorem withAnswers_envs (w : WriteAnswer) (c : Bool) (s : State) : (withAnswers w c s).envs = s.envs := rfl
@[simp] theorem withAnswers_logs (w : WriteAnswer) (c : Bool) (s : State) : (withAnswers w c s).logs = s.logs := rfl
@[simp] theorem withAnswers_cq (w : WriteAnswer) (c : Bool) (s : State) : (withAnswers w c s).cq = s.cq := rfl
@[simp] theorem withAnswers_writeAnswer (w : WriteAnswer) (c : Bool) (s : State) : (withAnswers w c s).writeAnswer = w := rfl
@[simp] theorem withAnswers_completeAnswer (w : WriteAnswer) (c : Bool) (s : State) : (withAnswers w c s).completeAnswer = c := rfl
@[simp] theorem withAnswers_turns (w : WriteAnswer) (c : Bool) (s : State) : (withAnswers w c s).turns = s.turns := rfl
@[simp] theorem withAnswers_tick (w : WriteAnswer) (c : Bool) (s : State) : (withAnswers w c s).tick = s.tick := rfl

@[simp] theorem setStop_cfg (s : State) : (setStop s).cfg = s.cfg := rfl
@[simp] theorem setStop_viable (s : State) : (setStop s).viable = s.viable := rfl
@[simp] theorem setStop_fsm (s : State) : (setStop s).fsm = s.fsm := rfl
@[simp] theorem setStop_buf (s : State) : (setStop s).buf = s.buf := rfl
@[simp] theorem setStop_acc (s : State) : (setStop s).acc = s.acc := rfl
@[simp] theorem setStop_line (s : State) : (setStop s).line = s.line := rfl
@[simp] theorem setStop_phase (s : State) : (setStop s).phase = s.phase := rfl
@[simp] theorem setStop_queue (s : State) : (setStop s).queue = s.queue := rfl
@[simp] theorem setStop_stop (s : State) : (setStop s).stop = true := rfl
@[simp] theorem setStop_reader (s : State) : (setStop s).reader = s.reader := rfl
@[simp] theorem setStop_held (s : State) : (setStop s).held = s.held := rfl
@[simp] theorem setStop_rx (s : State) : (setStop s).rx = s.rx := rfl
@[simp] theorem setStop_pos (s : State) : (setStop s).pos = s.pos := rfl
@[simp] theorem setStop_tx (s : State) : (setStop s).tx = s.tx := rfl
@[simp] theorem setStop_txfail (s : State) : (setStop s).txfail = s.txfail := rfl
@[simp] theorem setStop_envs (s : State) : (setStop s).envs = s.envs := rfl
@[simp] theorem setStop_logs (s : State) : (setStop s).logs = s.logs := rfl
@[simp] theorem setStop_cq (s : State) : (setStop s).cq = s.cq := rfl
@[simp] theorem setStop_writeAnswer (s : State) : (setStop s).writeAnswer = s.writeAnswer := rfl
@[simp] theorem setStop_completeAnswer (s : State) : (setStop s).completeAnswer = s.completeAnswer := rfl
@[simp] theorem setStop_turns (s : State) : (setStop s).turns = s.turns := rfl
@[simp] theorem setStop_tick (s : State) : (setStop s).tick = s.tick := rfl

@[simp] theorem arriveBytes_cfg (b : Bytes) (s : State) : (arriveBytes b s).cfg = s.cfg := rfl
@[simp] theorem arriveBytes_viable (b : Bytes) (s : State) : (arriveBytes b s).viable = s.viable := rfl
@[simp] theorem arriveBytes_fsm (b : Bytes) (s : State) : (arriveBytes b s).fsm = s.fsm := rfl
@[simp] theorem arriveBytes_buf (b : Bytes) (s : State) : (arriveBytes b s).buf = s.buf := rfl
@[simp] theorem arriveBytes_acc (b : Bytes) (s : State) : (arriveBytes b s).acc = s.acc := rfl
@[simp] theorem arriveBytes_line (b : Bytes) (s : State) : (arriveBytes b s).line = s.line := rfl
@[simp] theorem arriveBytes_phase (b : Bytes) (s : State) : (arriveBytes b s).phase = s.phase := rfl
@[simp] theorem arriveBytes_queue (b : Bytes) (s : State) : (arriveBytes b s).queue = s.queue := rfl
@[simp] theorem arriveBytes_stop (b : Bytes) (s : State) : (arriveBytes b s).stop = s.stop := rfl
@[simp] theorem arriveBytes_reader (b : Bytes) (s : State) : (arriveBytes b s).reader = s.reader := rfl
@[simp] theorem arriveBytes_held (b : Bytes) (s : State) : (arriveBytes b s).held = s.held := rfl
@[simp] theorem arriveBytes_rx (b : Bytes) (s : State) : (arriveBytes b s).rx = s.rx ++ b := rfl
@[simp] theorem arriveBytes_pos (b : Bytes) (s : State) : (arriveBytes b s).pos = s.pos := rfl
@[simp] theorem arriveBytes_tx (b : Bytes) (s : State) : (arriveBytes b s).tx = s.tx := rfl
@[simp] theorem arriveBytes_txfail (b : Bytes) (s : State) : (arriveBytes b s).txfail = s.txfail := rfl
@[simp] theorem arriveBytes_envs (b : Bytes) (s : State) : (arriveBytes b s).envs = s.envs := rfl
@[simp] theorem arriveBytes_logs (b : Bytes) (s : State) : (arriveBytes b s).logs = s.logs := rfl
@[simp] theorem arriveBytes_cq (b : Bytes) (s : State) : (arriveBytes b s).cq = s.cq := rfl
@[simp] theorem arriveBytes_writeAnswer (b : Bytes) (s : State) : (arriveBytes b s).writeAnswer = s.writeAnswer := rfl
@[simp] theorem arriveBytes_completeAnswer (b : Bytes) (s : State) : (arriveBytes b s).completeAnswer = s.completeAnswer := rfl
@[simp] theorem arriveBytes_turns (b : Bytes) (s : State) : (arriveBytes b s).turns = s.turns := rfl
@[simp] theorem arriveBytes_tick (b : Bytes) (s : State) : (arriveBytes b s).tick = s.tick := rfl

end Sys2Proof.Machine
end

