-- ==== Sys2Proof/Laws/Ops.lean ====
section
/-! SUPPORT. For each shared operation, once, everything it can do. -/

namespace Sys2Proof.Machine

/-- A failed write differs from a successful one in what reached the wire, the count and the log. -/
theorem ackWrite_cases (b : Bytes) (s : State) :
    (s.writeAnswer = .ok ∧ ackWrite b s = { s with tx := s.tx ++ b }) ∨
    (∃ k : Fin 12, s.writeAnswer = .fail k ∧
      ackWrite b s = { s with tx := s.tx ++ b.take k.val, txfail := s.txfail + 1, logs := s.logs ++ [.txWriteError] }) := by
  unfold ackWrite
  split
  · exact .inl ⟨‹_›, rfl⟩
  · exact .inr ⟨_, ‹_›, rfl⟩

/-- A write touches `tx`, `txfail` and `logs` and nothing else. -/
theorem ackWrite_frame (b : Bytes) (s : State) : ∃ tx n es,
    ackWrite b s = { s with tx := s.tx ++ tx, txfail := s.txfail + n, logs := s.logs ++ es } := by
  rcases ackWrite_cases b s with ⟨-, h⟩ | ⟨k, -, h⟩
  · exact ⟨b, 0, [], by simp [h]⟩
  · exact ⟨_, 1, _, h⟩

/-- The gate writes the frame of the received code, or does nothing. -/
theorem ackGate_cases (e : Envelope) (s : State) :
    ((e.ackRequested && e.hashValid) = true ∧ ackGate e s = ackWrite (ackBytes e.receivedCode) s) ∨
    ((e.ackRequested && e.hashValid) = false ∧ ackGate e s = s) := by
  unfold ackGate
  cases h : e.ackRequested && e.hashValid <;> simp

/-- A payload decodes to one envelope or to one reason. -/
theorem decodePayload_eq_env {c : Config} {k : Kind} {p : Bytes} {e : Envelope} :
    decodePayload c k p = .env e ↔ rejection k p = none ∧ e = envelopeOf c k p := by
  cases h : rejection k p <;> simp [decodePayload, h, eq_comm]

theorem decodePayload_eq_malformed {c : Config} {k : Kind} {p : Bytes} {r : MalformedReason} :
    decodePayload c k p = .malformed r ↔ rejection k p = some r := by
  cases h : rejection k p <;> simp [decodePayload, h]

/-- The three checks pass exactly when the payload holds its length field, its data and its code. -/
theorem rejection_eq_none {k : Kind} {p : Bytes} :
    rejection k p = none ↔ idBytes k + 2 ≤ p.length ∧ idBytes k + 6 + payloadLength k p ≤ p.length := by
  unfold rejection
  split
  · simp; omega
  split
  · simp; omega
  split
  · simp; omega
  · simp; omega

/-- A frame either logs its rejection, or is processed as its envelope. -/
theorem processFrame_cases (k : Kind) (p : Bytes) (s : State) :
    (∃ r, decodePayload s.cfg k p = .malformed r ∧ processFrame k p s = logEvent (.malformed k r) s) ∨
    (∃ e, decodePayload s.cfg k p = .env e ∧ processFrame k p s = processEnvelope k e s) := by
  unfold processFrame
  split
  · exact .inl ⟨_, ‹_›, rfl⟩
  · exact .inr ⟨_, ‹_›, rfl⟩

/-- Processing an envelope touches the output ports and nothing else. -/
theorem processEnvelope_frame (k : Kind) (e : Envelope) (s : State) : ∃ tx n es cq,
    processEnvelope k e s = { s with
      tx := s.tx ++ tx, txfail := s.txfail + n, logs := s.logs ++ es, envs := s.envs ++ [(k, e)], cq := s.cq ++ cq } := by
  let s1 : State := { s with logs := s.logs ++ envelopeEvents k e }
  have h : ∃ tx n es,
      ackGate e s1 = { s with tx := s.tx ++ tx, txfail := s.txfail + n, logs := s.logs ++ es } := by
    rcases ackGate_cases e s1 with ⟨-, h⟩ | ⟨-, h⟩
    · obtain ⟨tx, n, es, h'⟩ := ackWrite_frame (ackBytes e.receivedCode) s1
      exact ⟨tx, n, envelopeEvents k e ++ es, by rw [h, h']; simp [s1]⟩
    · exact ⟨[], 0, envelopeEvents k e, by rw [h]; simp [s1]⟩
  obtain ⟨tx, n, es, h⟩ := h
  cases k
  · exact ⟨tx, n, es, [], by simp [processEnvelope, s1] at h ⊢; rw [h]; simp [deliver]⟩
  · exact ⟨tx, n, es, [s.completeAnswer], by
      simp [processEnvelope, s1] at h ⊢; rw [h]; simp [deliver, queryComplete]⟩

/-- Processing a frame touches the output ports and nothing else. -/
theorem processFrame_frame (k : Kind) (p : Bytes) (s : State) : ∃ tx n es envs cq,
    processFrame k p s = { s with
      tx := s.tx ++ tx, txfail := s.txfail + n, logs := s.logs ++ es, envs := s.envs ++ envs, cq := s.cq ++ cq } := by
  rcases processFrame_cases k p s with ⟨r, -, h⟩ | ⟨e, -, h⟩
  · exact ⟨[], 0, [.malformed k r], [], [], by rw [h]; simp [logEvent]⟩
  · obtain ⟨tx, n, es, cq, h'⟩ := processEnvelope_frame k e s
    exact ⟨tx, n, es, [(k, e)], cq, h.trans h'⟩

/-- One byte's feed ends the line, with or without an event, or keeps it growing below the cap. -/
theorem diagFeed_cases (s : State) (b : Byte) :
    (∃ t, diagFeed s b = { s with line := [], logs := s.logs ++ [.diag t] }) ∨
    diagFeed s b = { s with line := [] } ∨
    (b ≠ Wire.newline ∧ (s.line ++ [b]).length ≤ s.cfg.diagCap ∧ diagFeed s b = { s with line := s.line ++ [b] }) := by
  simp only [diagFeed, endLine]
  split
  · split
    · exact .inl ⟨_, rfl⟩
    · exact .inr (.inl rfl)
  · split
    · exact .inr (.inl rfl)
    · exact .inr (.inr ⟨‹_›, by omega, rfl⟩)

/-- Offering a block appends it where there is room and holds it where there is none. -/
theorem offerBlock_cases (blk : Bytes) (s : State) :
    (s.queue.length < Config.qcap ∧ offerBlock blk s = { s with queue := s.queue ++ [blk], held := none }) ∨
    (Config.qcap ≤ s.queue.length ∧ offerBlock blk s = { s with held := some blk }) := by
  unfold offerBlock
  split
  · exact .inl ⟨‹_›, rfl⟩
  · exact .inr ⟨by omega, rfl⟩

/-- What an operation that completes can have done. -/
theorem exec_cases {i : Instr} {s t : State} (h : exec i s = .next t) :
    (∃ f, f ≠ .idle ∧ (i = .opHs ∧ f = .receivingHeader ∨ i = .opCs ∧ f = .receivingChunk) ∧
      t = openFrame f (consume 4 s)) ∨
    (i = .opHe ∧ s.fsm = .receivingHeader ∧ t = processFrame .header s.acc (closeFrame (consume 4 s))) ∨
    (i = .opCe ∧ s.fsm = .receivingChunk ∧ t = processFrame .chunk s.acc (closeFrame (consume 4 s))) ∨
    ((i = .opHe ∧ s.fsm ≠ .receivingHeader ∨ i = .opCe ∧ s.fsm ≠ .receivingChunk) ∧ t = consume 4 s) ∨
    (∃ x ahead, i = .opData x ahead ∧ s.fsm = .idle ∧ t = consume 1 s) ∨
    (∃ x ahead, i = .opData x ahead ∧ s.fsm ≠ .idle ∧ s.cfg.accCap ≠ some s.acc.length ∧
      t = appendAcc x (consume 1 s)) ∨
    (∃ c, i = .ackFrame c ∧ t = ackWrite (ackBytes c) s) := by
  cases i with
  | opHs => cases h; exact .inl ⟨_, by decide, .inl ⟨rfl, rfl⟩, rfl⟩
  | opCs => cases h; exact .inl ⟨_, by decide, .inr ⟨rfl, rfl⟩, rfl⟩
  | opHe =>
    cases hf : s.fsm <;> simp only [exec, execOpHe, hf, Host.Outcome.next.injEq] at h <;> subst h <;> simp
  | opCe =>
    cases hf : s.fsm <;> simp only [exec, execOpCe, hf, Host.Outcome.next.injEq] at h <;> subst h <;> simp
  | opData x ahead =>
    cases hf : s.fsm <;> simp only [exec, execOpData, hf] at h
    · cases h; simp
    all_goals
      split at h
      · cases h
      · cases h; simp_all
  | ackFrame c => cases h; simp

end Sys2Proof.Machine
end

