-- ==== Sys2Proof/Laws/PerInstr.lean ====
section
/-! SUPPORT. The family `EncodingWidth`: an operation's bytes fill the format of its table row, and it consumes at least
one of them and no more than there are. -/

namespace Sys2Proof.Laws

/-- A window is 4 bytes, an ACK frame 12 (30_encoding.md R72, R79). -/
def EncodingWidth.Statement (i : Instr) : Prop :=
  (encode i).length = (match i.direction with | .rx => 4 | .tx => 12) ∧
    1 ≤ i.consumes ∧ i.consumes ≤ (encode i).length

theorem EncodingWidth.opHs : EncodingWidth.Statement .opHs :=
  ⟨rfl, by decide, by decide⟩
theorem EncodingWidth.opHe : EncodingWidth.Statement .opHe :=
  ⟨rfl, by decide, by decide⟩
theorem EncodingWidth.opCs : EncodingWidth.Statement .opCs :=
  ⟨rfl, by decide, by decide⟩
theorem EncodingWidth.opCe : EncodingWidth.Statement .opCe :=
  ⟨rfl, by decide, by decide⟩
theorem EncodingWidth.opData (x : Byte) (ahead : BitVec 24) : EncodingWidth.Statement (.opData x ahead) := by
  simp [EncodingWidth.Statement, encode, Instr.direction, Instr.consumes]
theorem EncodingWidth.ackFrame (code : Word) : EncodingWidth.Statement (.ackFrame code) := by
  simp [EncodingWidth.Statement, encode, Instr.direction, Instr.consumes]

end Sys2Proof.Laws
end

