-- ==== Sys2Proof/Laws/Step.lean ====
section
/-! SUPPORT. What a step of each agent can do, and which agent a step runs. -/

namespace Sys2Proof.Machine

/-- A listed turn is the move of the step. -/
theorem step_of_turn {s : State} {u : Turn} {ts : List Turn} (hv : s.viable = true) (ht : s.turns = u :: ts) :
    step s = runTurn u { s with turns := ts } := by
  simp [step, machineStep, nextTurn, hv, ht]

/-- The same, for a state given with its turns. -/
theorem step_cons (s : State) (u : Turn) (ts : List Turn) (hv : s.viable = true) :
    step { s with turns := u :: ts } = runTurn u { s with turns := ts } := by
  simp [step, machineStep, nextTurn, hv]

/-- A step that answers ran some turn on the state without it. -/
theorem step_cases {s t : State} (h : step s = .next t) :
    s.viable = true ∧ ∃ u ts n, runTurn u { s with turns := ts, tick := n } = .next t := by
  unfold step machineStep at h
  split at h
  · refine ⟨‹_›, ?_⟩
    unfold nextTurn at h
    split at h
    · exact ⟨_, _, s.tick, h⟩
    · exact ⟨_, s.turns, s.tick + 1, h⟩
  · cases h

/-- What a step of P that answers can have done. -/
theorem processorStep_cases {s t : State} (h : processorStep s = .next t) :
    (s.phase = .poll ∧ s.stop = true ∧ t = { s with phase := .stopped }) ∨
    (s.phase = .poll ∧ s.stop = false ∧ s.queue = [] ∧ t = s) ∨
    (∃ blk q, s.phase = .poll ∧ s.stop = false ∧ s.queue = blk :: q ∧
      overCap s.cfg.bufCap (s.buf.length + blk.length) = false ∧
      t = { diagFeedAll blk { s with queue := q } with
        buf := (diagFeedAll blk { s with queue := q }).buf ++ blk, phase := .drain }) ∨
    (s.phase = .drain ∧ s.buf.length < 4 ∧ t = { s with phase := .poll }) ∨
    (s.phase = .drain ∧ 4 ≤ s.buf.length ∧ exec (decodeWindow (peek4 s)) s = .next t) ∨
    (s.phase = .stopped ∧ t = s) := by
  unfold processorStep at h
  cases hp : s.phase with
  | poll =>
    simp only [hp, pollStep] at h
    split at h
    · cases h; simp_all
    · split at h
      · cases h; simp_all
      · rename_i blk q hq
        unfold popBlock at h
        split at h
        · cases h
        · cases h; simp_all
  | drain =>
    simp only [hp, drainStep] at h
    split at h
    · cases h; simp_all
    · simp_all
  | stopped => simp only [hp] at h; cases h; simp

/-- What a step of R can do. -/
theorem readerStep_cases (a : ReadAnswer) (s : State) :
    (s.reader = .exited ∧ readerStep a s = s) ∨
    (s.reader = .running ∧ s.stop = true ∧ readerStep a s = { s with reader := .exited, held := none }) ∨
    (∃ blk, s.reader = .running ∧ s.stop = false ∧ s.held = some blk ∧ readerStep a s = offerBlock blk s) ∨
    (s.reader = .running ∧ s.stop = false ∧ s.held = none ∧ a = .error ∧ s.rx ≠ [] ∧
      readerStep a s = { s with reader := .exited, logs := s.logs ++ [.rxReadError] }) ∨
    (s.reader = .running ∧ s.stop = false ∧ s.held = none ∧ s.rx = [] ∧ readerStep a s = s) ∨
    (∃ more, s.reader = .running ∧ s.stop = false ∧ s.held = none ∧ a = .bytes more ∧ s.rx ≠ [] ∧
      readerStep a s = offerBlock (s.rx.take (more + 1)) { s with rx := s.rx.drop (more + 1) }) := by
  unfold readerStep
  cases hr : s.reader with
  | exited => simp
  | running =>
    cases hs : s.stop with
    | true => simp
    | false =>
      cases hh : s.held with
      | some blk => simp
      | none =>
        by_cases hx : s.rx = []
        · simp [readTransport, hx]
        · cases a <;> simp [readTransport, logEvent, hx, hr, hs, hh]

/-- S raises stop once R has exited, or does nothing. -/
theorem supervisorStep_cases (s : State) :
    (s.reader = .exited ∧ supervisorStep s = { s with stop := true }) ∨
    (s.reader = .running ∧ supervisorStep s = s) := by
  unfold supervisorStep
  cases h : s.reader <;> simp

end Sys2Proof.Machine
end

