-- ==== Sys2Proof/Tests/Slice0.lean ====
section
/-! SUPPORT. Tests: expected results are the tables of 30_encoding.md and the vectors of 95_test_vectors.md; and for
every obligation with hypotheses, operands and states that meet them. -/

namespace Sys2Proof.Tests

open Sys2Proof.Machine

/-! ### A deployment and small states (the common assumptions of 95_test_vectors.md) -/

/-- The deployment of 95_test_vectors.md, with the readings of 93_implementation_defined.md I3 as a table. -/
def testCfg : Config where
  checksum := .crc32
  checkScope := .dataOnly
  docDecode := .table
    [([0xA0], []), ([0xA1, 0x08, 0xF5], [(8, .bool true)]), ([0xA1, 0x08, 0xF4], [(8, .bool false)]),
      ([0xA1, 0x08, 0xF6], [(8, .null)])]
  errDoc := [(-1, .text ['d', 'e', 'c', 'o', 'd', 'e', '-', 'e', 'r', 'r', 'o', 'r'])]
  ackTruth := .truthiness
  diagPrefixes := [['D', 'B', 'G', ':']]
  diagCap := 16
  textDecode := .utf8Lenient
  accCap := none
  bufCap := none

/-- The reset state under that deployment. -/
def start : State := { State.reset with cfg := testCfg }

/-- In a drain, with bytes waiting. -/
def draining (b : Bytes) : State := { start with phase := .drain, buf := b }

/-- In a drain, with a frame open. -/
def inFrame (f : Fsm) (acc b : Bytes) : State := { start with phase := .drain, fsm := f, acc := acc, buf := b }

/-- A turn of P whose write succeeds. -/
def pTurn : Turn := .processor .ok true

/-- The next state of an outcome. -/
def nextOf : Host.Outcome State Fault Refusal → Option State
  | .next t => some t
  | .fault _ => none
  | .refused _ => none

/-- The bytes of 95_test_vectors.md that recur: the markers and the Header payload P8. -/
def hs : Bytes := [0x0C, 0x0B, 0x0A, 0x09]
def he : Bytes := [0x10, 0x0F, 0x0E, 0x0D]
def cs : Bytes := [0x04, 0x03, 0x02, 0x01]
def ce : Bytes := [0x08, 0x07, 0x06, 0x05]
def p8 : Bytes := [0x01, 0x00, 0xA0, 0x65, 0x4C, 0xD4, 0x04]

/-! ### Well-formedness -/

theorem test_wf_refuses_headerStart : (Instr.opData 0x0C#8 0x090A0B#24).wf = false := by decide
theorem test_wf_refuses_headerEnd : (Instr.opData 0x10#8 0x0D0E0F#24).wf = false := by decide
theorem test_wf_refuses_chunkStart : (Instr.opData 0x04#8 0x010203#24).wf = false := by decide
theorem test_wf_refuses_chunkEnd : (Instr.opData 0x08#8 0x050607#24).wf = false := by decide
theorem test_wf_accepts_data : (Instr.opData 0x0C#8 0x090A0A#24).wf = true := by decide

/-! ### Decoding: words written out from 30_encoding.md R70, R72 and R79 -/

theorem test_decode_opHs : decode .rx [0x0C, 0x0B, 0x0A, 0x09] = .ok (.opHs, []) := by rfl
theorem test_decode_opHe : decode .rx [0x10, 0x0F, 0x0E, 0x0D, 0x41] = .ok (.opHe, [0x41]) := by rfl
theorem test_decode_opCs : decode .rx [0x04, 0x03, 0x02, 0x01] = .ok (.opCs, []) := by rfl
theorem test_decode_opCe : decode .rx [0x08, 0x07, 0x06, 0x05] = .ok (.opCe, []) := by rfl
/-- The ACK frame's own markers are data to the receiver (R80). -/
theorem test_decode_opData :
    decode .rx [0x1C, 0x1B, 0x1A, 0x19] = .ok (.opData 0x1C#8 0x191A1B#24, [0x1B, 0x1A, 0x19]) := by rfl
/-- 95_test_vectors.md W2. -/
theorem test_decode_ackFrame :
    decode .tx [0x1C, 0x1B, 0x1A, 0x19, 0x65, 0x4C, 0xD4, 0x04, 0x20, 0x1F, 0x1E, 0x1D] =
      .ok (.ackFrame 0x04D44C65#32, []) := by rfl
/-- A marker word with its bytes reversed is data (R54). -/
theorem test_decode_bigEndian_marker : decodeTableWord 32 0x0C0B0A09 = some (.opData 0x09#8 0x0C0B0A#24) := by rfl
theorem test_decode_windowShort : decode .rx [0x0C, 0x0B, 0x0A] = .error .windowShort := by rfl
theorem test_decode_ackShort : decode .tx [0x1C, 0x1B, 0x1A, 0x19] = .error .ackShort := by rfl
theorem test_decode_ackStartWrong :
    decode .tx [0x1C, 0x1B, 0x1A, 0x18, 0, 0, 0, 0, 0x20, 0x1F, 0x1E, 0x1D] = .error .ackStartWrong := by rfl
theorem test_decode_ackEndWrong :
    decode .tx [0x1C, 0x1B, 0x1A, 0x19, 0, 0, 0, 0, 0x1D, 0x1E, 0x1F, 0x20] = .error .ackEndWrong := by rfl

/-! ### One step of each operation -/

/-- Vector Q7. -/
theorem test_step_opHs :
    (nextOf (step { draining hs with turns := [pTurn] })).map (fun t => (t.fsm, t.buf, t.phase)) =
      some (.receivingHeader, [], .drain) := by decide +kernel
/-- Vector F3. -/
theorem test_opHs_drops_open_frame :
    exec .opHs (inFrame .receivingChunk [0x07, 0x00] hs) =
      .next { inFrame .receivingHeader [] [] with pos := 4 } := by rfl
/-- Vector A1, with the stream of W4. -/
theorem test_opHe_finalizes :
    (nextOf (exec .opHe (inFrame .receivingHeader p8 he))).map
        (fun t => (t.fsm, t.acc, t.tx, t.envs.map (·.2.packetId))) =
      some (.idle, [], [0x1C, 0x1B, 0x1A, 0x19, 0x65, 0x4C, 0xD4, 0x04, 0x20, 0x1F, 0x1E, 0x1D], [-1]) := by
  decide +kernel
/-- Vector F6. -/
theorem test_opHe_unmatched :
    exec .opHe (inFrame .receivingChunk [0x07, 0x00] he) =
      .next { inFrame .receivingChunk [0x07, 0x00] [] with pos := 4 } := by rfl
/-- Vector F8. -/
theorem test_opCs_drops_open_frame :
    exec .opCs (inFrame .receivingHeader [0x07, 0x00] cs) =
      .next { inFrame .receivingChunk [] [] with pos := 4 } := by rfl
/-- Vector F12. -/
theorem test_opCe_too_short :
    exec .opCe (inFrame .receivingChunk [0x07, 0x00] ce) =
      .next { inFrame .idle [] [] with pos := 4, logs := [.malformed .chunk .tooShort] } := by rfl
/-- Vector W5, Scenario B: a tampered Chunk is delivered, logged and queried, and not acknowledged. -/
theorem test_opCe_bad_code :
    (nextOf (exec .opCe (inFrame .receivingChunk
        [0x08, 0x00, 0x00, 0x00, 0x03, 0x00, 0xA1, 0x08, 0xF5, 0x48, 0x52, 0xF2, 0x55] ce))).map
        (fun t => (t.tx, t.envs.map (·.2.ackRequested), t.logs, t.cq)) =
      some ([], [true], [.checksumMismatch .chunk 8 0x55F25248#32 0x22F562DE#32], [false]) := by
  decide +kernel
/-- Vector F14. -/
theorem test_opData_accumulates :
    exec (.opData 0x55#8 0x0A0B0C#24) (inFrame .receivingHeader [0x07, 0x00] [0x55, 0x0C, 0x0B, 0x0A]) =
      .next { inFrame .receivingHeader [0x07, 0x00, 0x55] [0x0C, 0x0B, 0x0A] with pos := 1 } := by rfl
/-- Vector F17, first step. -/
theorem test_step_opData_noise :
    (nextOf (step { draining [0x55, 0x0C, 0x0B, 0x0A, 0x09] with turns := [pTurn] })).map
        (fun t => (t.fsm, t.buf, t.acc)) = some (.idle, hs, []) := by decide +kernel
/-- Vector A2. -/
theorem test_ackFrame_failed_write :
    exec (.ackFrame 0x04D44C65#32) { start with writeAnswer := .fail 5 } =
      .next { start with
        writeAnswer := .fail 5, tx := [0x1C, 0x1B, 0x1A, 0x19, 0x65], txfail := 1, logs := [.txWriteError] } := by rfl
/-- The first step after reset with an ACK frame placed (R79). -/
theorem test_ackFrame_placed :
    (nextOf (step (State.reset.withFetchWord 96 0x1D1E1F2004D44C65191A1B1C))).map (·.tx) =
      some [0x1C, 0x1B, 0x1A, 0x19, 0x65, 0x4C, 0xD4, 0x04, 0x20, 0x1F, 0x1E, 0x1D] := by decide +kernel

/-! ### The Packet Decoder, the checksum and the diagnostic channel -/

/-- Vectors P6, P7, P13 and P15. -/
theorem test_decoder_rejections :
    decodePayload testCfg .header [0x05, 0x00, 0xA0, 0, 0, 0, 0] = .malformed .codeTruncated ∧
    decodePayload testCfg .header [0x06, 0x00, 0xA0, 0, 0, 0, 0] = .malformed .lengthOverrun ∧
    decodePayload testCfg .header ([0x07, 0, 0, 0] ++ p8) = .malformed .codeTruncated ∧
    decodePayload testCfg .chunk [0x07, 0, 0, 0, 0xFF, 0xFF, 0xA0, 0x65, 0x4C, 0xD4, 0x04] =
      .malformed .lengthOverrun := by decide
/-- Vector P12: surplus bytes, and a key 8 that is false. -/
theorem test_decoder_surplus :
    decodePayload testCfg .header [0x03, 0x00, 0xA1, 0x08, 0xF4, 0x48, 0x52, 0xF2, 0x55, 0xEE, 0xEE] =
      .env ⟨.header, -1, [(8, .bool false)], true, false, true, 0x55F25248#32, 0x55F25248#32,
        [0x03, 0x00, 0xA1, 0x08, 0xF4, 0x48, 0x52, 0xF2, 0x55, 0xEE, 0xEE]⟩ := by decide +kernel
/-- Vector K8: the code over the whole prefix. -/
theorem test_decoder_prefix_scope :
    (envelopeOf { testCfg with checkScope := .wholePrefix } .chunk
      [0x07, 0, 0, 0, 0x01, 0x00, 0xA0, 0x2F, 0x28, 0xDF, 0x8F]).hashValid = true := by decide +kernel
/-- Vector K2. -/
theorem test_crc32 : crc32 [0x31, 0x32, 0x33, 0x34, 0x35, 0x36, 0x37, 0x38, 0x39] = 0xCBF43926#32 := by
  decide +kernel
/-- Vector G4: `"DBG:hi"` and a HEADER_START. -/
theorem test_diag_marker_in_line :
    diagFeedAll ([0x44, 0x42, 0x47, 0x3A, 0x68, 0x69] ++ hs) start =
      { start with
        line := [0x09]
        logs := [.diag ['D', 'B', 'G', ':', 'h', 'i', Char.ofNat 12, Char.ofNat 11]] } := by decide +kernel
/-- Vector G3: an ill-formed byte is dropped. -/
theorem test_diag_ill_formed :
    (diagFeedAll [0xFF, 0x44, 0x42, 0x47, 0x3A, 0x78, 0x0A] start).logs = [.diag ['D', 'B', 'G', ':', 'x']] := by
  decide +kernel

/-- UTF-8 as its standard defines it (93_implementation_defined.md I4): `A`, a stray byte, U+00E9, a cut sequence, `B`,
U+20AC, a surrogate's bytes, U+1F600, a sequence cut short by the end. -/
theorem test_textDecode_mixed :
    textDecode .utf8Lenient [0x41, 0x80, 0xC3, 0xA9, 0xE2, 0x82, 0x42, 0xE2, 0x82, 0xAC, 0xED, 0xA0, 0x80,
        0xF0, 0x9F, 0x98, 0x80, 0xF0, 0x9F] =
      ['A', Char.ofNat 0xE9, 'B', Char.ofNat 0x20AC, Char.ofNat 0x1F600] := by decide +kernel
/-- The readings of key 8 in R178 and the empty values of D11. -/
theorem test_truthiness :
    truthiness (.bool true) = true ∧ truthiness (.int 1) = true ∧ truthiness (.float 1#64) = true ∧
    truthiness (.text ['a']) = true ∧ ∀ v ∈ falseValues, truthiness v = false := by decide +kernel

/-! ### The agents -/

/-- Vector Q1. -/
theorem test_reader_push :
    nextOf (step { start with rx := [0x0C, 0x0B, 0x0A, 0x09, 0x41], turns := [.reader (.bytes 1)] }) =
      some { start with rx := [0x0A, 0x09, 0x41], queue := [[0x0C, 0x0B]] } := by decide +kernel
/-- Vector Q4, with a byte to read. -/
theorem test_reader_error :
    nextOf (step { start with rx := [0x41], turns := [.reader .error] }) =
      some { start with rx := [0x41], reader := .exited, logs := [.rxReadError] } := by decide +kernel
/-- R113: with no byte available R holds. -/
theorem test_reader_idle : nextOf (step { start with turns := [.reader .error] }) = some start := by decide +kernel
/-- Vector Q6. -/
theorem test_processor_pop :
    (nextOf (step { start with buf := [0x0C], queue := [[0x0B, 0x0A, 0x09]], turns := [pTurn] })).map
        (fun t => (t.buf, t.phase, t.line, t.logs)) = some (hs, .drain, [0x09], []) := by decide +kernel
/-- Vector Q9. -/
theorem test_stop_wins :
    (nextOf (step { start with stop := true, queue := [hs ++ p8 ++ he], turns := [pTurn] })).map
        (fun t => (t.phase, t.envs)) = some (.stopped, []) := by decide +kernel

/-! ### Witnesses: operands and states that meet the hypotheses of each obligation -/

theorem test_witness_EveryWindowSelectsItsOperation :
    4 ≤ hs.length ∧ Wire.le32 hs 0 = 0x090A0B0C#32 ∧ 4 ≤ he.length ∧ Wire.le32 he 0 = 0x0D0E0F10#32 ∧
    4 ≤ cs.length ∧ Wire.le32 cs 0 = 0x01020304#32 ∧ 4 ≤ ce.length ∧ Wire.le32 ce 0 = 0x05060708#32 ∧
    4 ≤ (hs.drop 1 ++ [0x41]).length ∧
    Wire.le32 (hs.drop 1 ++ [0x41]) 0 ∉ [0x090A0B0C#32, 0x0D0E0F10#32, 0x01020304#32, 0x05060708#32] := by decide

theorem test_witness_DecodeInvertsEncode :
    Instr.opHs.wf = true ∧ Instr.opHe.wf = true ∧ Instr.opCs.wf = true ∧ Instr.opCe.wf = true ∧
    (Instr.opData 0xFF#8 0xFFFFFF#24).wf = true ∧ (Instr.ackFrame 0xFFFFFFFF#32).wf = true := by decide

theorem test_witness_EncodeInvertsDecode :
    (he.length = 4 ∧ decode .rx he = .ok (.opHe, [])) ∧
    ((ackBytes 0#32).length = 12 ∧ decode .tx (ackBytes 0#32) = .ok (.ackFrame 0#32, [])) := ⟨⟨rfl, rfl⟩, rfl, rfl⟩

theorem test_witness_DecodedOperationsAreWellFormed :
    decode .rx [0, 0, 0, 0] = .ok (.opData 0#8 0#24, [0, 0, 0]) ∧
    decode .tx (ackBytes 7#32) = .ok (.ackFrame 7#32, []) := ⟨rfl, rfl⟩

theorem test_witness_OpHeFinalizesHeaderFrame :
    (inFrame .receivingHeader p8 he).fsm = .receivingHeader ∧ (inFrame .receivingChunk p8 he).fsm ≠ .receivingHeader ∧
    start.fsm ≠ .receivingHeader := by decide

theorem test_witness_OpCeFinalizesChunkFrame :
    (inFrame .receivingChunk p8 ce).fsm = .receivingChunk ∧ (inFrame .receivingHeader p8 ce).fsm ≠ .receivingChunk ∧
    start.fsm ≠ .receivingChunk := by decide

/-- One below the capacity, and at it. -/
theorem test_witness_OpDataMovesOneByte :
    (0x090A0B0D#32 ∉ Wire.frameMarkers) ∧ start.fsm = .idle ∧
    (let s := { inFrame .receivingHeader p8 hs with cfg := { testCfg with accCap := some 8 } }
     s.fsm ≠ .idle ∧ s.cfg.accCap ≠ some s.acc.length) ∧
    (let s := { inFrame .receivingHeader p8 hs with cfg := { testCfg with accCap := some 7 } }
     s.fsm ≠ .idle ∧ s.cfg.accCap = some s.acc.length) := by decide

theorem test_witness_OpDataSticksAtAccCap :
    let s := { inFrame .receivingChunk [] hs with cfg := { testCfg with accCap := some 0 } }
    s.fsm ≠ .idle ∧ s.cfg.accCap = some s.acc.length := by decide

theorem test_witness_AckFrameWritesTwelveBytes :
    start.writeAnswer = .ok ∧ { start with writeAnswer := .fail 0 }.writeAnswer = .fail 0 ∧
    { start with writeAnswer := .fail 11 }.writeAnswer = .fail 11 := by decide

theorem test_witness_AssemblerTransitionTable :
    (∃ t, exec .opHs start = .next t) ∧ (∃ t, exec .opCs start = .next t) ∧
    (∃ t, exec .opHe (inFrame .receivingHeader [] he) = .next t) ∧ (∃ t, exec .opHe start = .next t) ∧
    (∃ t, exec .opCe (inFrame .receivingChunk [] ce) = .next t) ∧ (∃ t, exec .opCe start = .next t) ∧
    (∃ t, exec (.opData 0#8 0#24) start = .next t) ∧
    (∃ t, exec (.opData 0#8 0#24) (inFrame .receivingChunk p8 []) = .next t) :=
  ⟨⟨_, rfl⟩, ⟨_, rfl⟩, ⟨_, rfl⟩, ⟨_, rfl⟩, ⟨_, rfl⟩, ⟨_, rfl⟩, ⟨_, rfl⟩, ⟨_, rfl⟩⟩

theorem test_witness_AssemblerLeavesTheRestAlone :
    (∃ t, exec .opHe (inFrame .receivingHeader [] he) = .next t) ∧
    ∃ t, exec (.ackFrame 0#32) { start with writeAnswer := .fail 3 } = .next t := ⟨⟨_, rfl⟩, _, rfl⟩

theorem test_witness_OnlyFinalizingReachesThePorts :
    Instr.opHe.direction = .rx ∧ ¬(Instr.opHe = .opHe ∧ start.fsm = .receivingHeader) ∧
    ¬(Instr.opHe = .opCe ∧ start.fsm = .receivingChunk) ∧ ∃ t, exec .opHe start = .next t :=
  ⟨rfl, by decide, by decide, _, rfl⟩

theorem test_witness_MalformedFrameOnlyLogs :
    let s := inFrame .receivingHeader [0x01] he
    let s' := inFrame .receivingChunk (p8.take 5) ce
    (s.fsm = .receivingHeader ∧ decodePayload s.cfg .header s.acc = .malformed .tooShort) ∧
    (s'.fsm = .receivingChunk ∧ decodePayload s'.cfg .chunk s'.acc = .malformed .tooShort) := by decide

/-- Verified and asked for, with the write succeeding and failing at both ends of its range; and not verified. -/
theorem test_witness_EnvelopeReachesThePorts :
    decodePayload testCfg .header p8 = .env (envelopeOf testCfg .header p8) ∧
    (envelopeOf testCfg .header p8).ackRequested = true ∧ (envelopeOf testCfg .header p8).hashValid = true ∧
    start.writeAnswer = .ok ∧ { start with writeAnswer := .fail 0 }.writeAnswer = .fail 0 ∧
    { start with writeAnswer := .fail 11 }.writeAnswer = .fail 11 ∧
    decodePayload testCfg .header [0, 0, 1, 0, 0, 0] = .env (envelopeOf testCfg .header [0, 0, 1, 0, 0, 0]) ∧
    (envelopeOf testCfg .header [0, 0, 1, 0, 0, 0]).hashValid = false := by decide +kernel

theorem test_witness_AckGateRunsAckFrame :
    let e := envelopeOf testCfg .header p8
    (e.ackRequested = true ∧ e.hashValid = true) ∧
    ¬({ e with ackRequested := false }.ackRequested = true ∧ e.hashValid = true) := by decide +kernel

/-- Both sides of the length bound, for both kinds. -/
theorem test_witness_EnvelopeExactlyWhenLongEnough :
    (0 + 2 ≤ 6 ∧ 0 + 6 + (Wire.le16 [0, 0, 0, 0, 0, 0] 0).toNat ≤ 6) ∧
    ¬(0 + 6 + (Wire.le16 [0, 0, 0, 0, 0] 0).toNat ≤ 5) ∧
    (4 + 6 + (Wire.le16 ([7, 0, 0, 0] ++ p8) 4).toNat ≤ ([7, 0, 0, 0] ++ p8).length) := by decide

/-- Each reason at the longest payload that gets it. -/
theorem test_witness_RejectionReasonsInOrder :
    decodePayload testCfg .header [0x01] = .malformed .tooShort ∧
    decodePayload testCfg .header [0x02, 0x00, 0xA0] = .malformed .lengthOverrun ∧
    decodePayload testCfg .header [0x01, 0x00, 0xA0, 0x65, 0x4C, 0xD4] = .malformed .codeTruncated := by decide

theorem test_witness_EnvelopeFields :
    let wholeCfg := { testCfg with checkScope := .wholePrefix, checksum := .seededHash32, ackTruth := .external }
    let nullPayload : Bytes := [7, 0, 0, 0, 0x03, 0x00, 0xA1, 0x08, 0xF6, 0x64, 0x33, 0xFC, 0xBB]
    (decodePayload testCfg .header p8 = .env (envelopeOf testCfg .header p8) ∧ testCfg.checkScope = .dataOnly ∧
      testCfg.checksum = .crc32 ∧ docDecode testCfg.docDecode [0xA0] = some [] ∧
      docLookup (envelopeOf testCfg .header p8).doc 8 = none ∧
      (∀ r ∈ (envelopeOf testCfg .header p8).doc, r.1 ≠ 8)) ∧
    (decodePayload testCfg .chunk nullPayload = .env (envelopeOf testCfg .chunk nullPayload) ∧
      docLookup (envelopeOf testCfg .chunk nullPayload).doc 8 = some .null ∧
      (envelopeOf testCfg .chunk nullPayload).doc = [] ++ (8, .null) :: [] ∧ testCfg.ackTruth = .truthiness) ∧
    (wholeCfg.checkScope = .wholePrefix ∧ wholeCfg.checksum = .seededHash32 ∧ wholeCfg.ackTruth = .external) ∧
    docDecode testCfg.docDecode [0xFF] = none := by decide +kernel

/-- The second row of the test table, reached past its first; bytes that no row lists; a decoder left open. -/
theorem test_witness_EnvelopeFields_decoder :
    testCfg.docDecode = .table ([([0xA0], [])] ++ ([0xA1, 0x08, 0xF5], [(8, .bool true)]) ::
      [([0xA1, 0x08, 0xF4], [(8, .bool false)]), ([0xA1, 0x08, 0xF6], [(8, .null)])]) ∧
    (∀ r ∈ ([([0xA0], [])] : List (Bytes × Doc)), r.1 ≠ [0xA1, 0x08, 0xF5]) ∧
    ({ testCfg with docDecode := .table [] }.docDecode = .table [] ∧
      ∀ r ∈ ([] : List (Bytes × Doc)), r.1 ≠ [0xA0]) ∧
    { testCfg with docDecode := .external }.docDecode = .external :=
  ⟨rfl, by simp, ⟨rfl, nofun⟩, rfl⟩

theorem test_witness_HashValidIsCodeEquality :
    decodePayload testCfg .header p8 = .env (envelopeOf testCfg .header p8) := by decide +kernel

theorem test_witness_DecodeFailureStillRequestsAck :
    testCfg.wf = true ∧
    decodePayload testCfg .header [0, 0, 0, 0, 0, 0] = .env (envelopeOf testCfg .header [0, 0, 0, 0, 0, 0]) ∧
    (envelopeOf testCfg .header [0, 0, 0, 0, 0, 0]).docOk = false := by decide +kernel

theorem test_witness_SurplusIsIgnored :
    decodePayload testCfg .chunk ([7, 0, 0, 0] ++ p8) = .env (envelopeOf testCfg .chunk ([7, 0, 0, 0] ++ p8)) := by
  decide +kernel

theorem test_witness_WellFormedPayloadDecodes :
    (List.replicate 65535 (0xAA#8 : Byte)).length < 65536 ∧ ([] : Bytes).length < 65536 :=
  ⟨by rw [List.length_replicate]; decide, by decide⟩

theorem test_witness_Crc32DetectsOneByteChange : (0xA0#8 : Byte) ≠ 0xA1#8 := by decide

/-- A line at its cap is kept, one past it is cleared; a finished line with and without the prefix. -/
theorem test_witness_DiagFeedCutsLines :
    (let l : Bytes := [0x44, 0x42, 0x47, 0x3A, 0x0A]
     ∃ p ∈ testCfg.diagPrefixes, p <+: textDecode testCfg.textDecode l) ∧
    (¬∃ p ∈ testCfg.diagPrefixes, p <+: textDecode testCfg.textDecode [0x44, 0x0A]) ∧
    (0x41#8 : Byte) ≠ 0x0A#8 ∧
    testCfg.diagCap < ({ start with line := List.replicate 16 0x41#8 }.line ++ [0x41#8]).length ∧
    ({ start with line := List.replicate 15 0x41#8 }.line ++ [0x41#8]).length ≤ testCfg.diagCap := by decide +kernel

/-- A well-formed character of each length; a byte that begins no sequence at both ends of its ranges; mixed bytes. -/
theorem test_witness_LenientDecodeKeepsAsciiDropsIllFormed :
    utf8Bytes (Char.ofNat 0x7F) = [0x7F] ∧ utf8Bytes (Char.ofNat 0x7FF) = [0xDF, 0xBF] ∧
    utf8Bytes (Char.ofNat 0xFFFF) = [0xEF, 0xBF, 0xBF] ∧ utf8Bytes (Char.ofNat 0x10FFFF) = [0xF4, 0x8F, 0xBF, 0xBF] ∧
    (∀ c : Char, ¬utf8Bytes c <+: [0xC1, 0xBF]) ∧ (∀ c : Char, ¬utf8Bytes c <+: [0xF5]) ∧
    ∀ x ∈ ([0x7F, 0x80, 0x00, 0xC1, 0xF5, 0xFF] : Bytes),
      x.toNat < 0x80 ∨ (0x80 ≤ x.toNat ∧ x.toNat ≤ 0xC1) ∨ 0xF5 ≤ x.toNat := by
  refine ⟨by decide, by decide, by decide, by decide, ?_, ?_, by simp⟩ <;> intro c hp <;>
    have hv : c.toNat < 0x110000 := (by
      have := c.valid
      simp only [UInt32.isValidChar, Nat.isValidChar] at this
      show c.val.toNat < _
      omega) <;>
    simp only [utf8Bytes] at hp <;> (repeat' split at hp) <;> simp only [List.cons_prefix_cons] at hp <;>
    have := congrArg BitVec.toNat hp.1 <;> simp at this <;> omega

/-- 999 blocks wait. -/
theorem test_witness_ReaderPushesABlock :
    let s := { start with queue := List.replicate 999 [0x41#8], rx := [0x42] }
    s.viable = true ∧ s.reader = .running ∧ s.stop = false ∧ s.held = none ∧ s.rx ≠ [] ∧ s.queue.length < 1000 := by
  decide +kernel

theorem test_witness_ReaderHoldsWhileQueueIsFull :
    (let s := { start with queue := List.replicate 1000 [0x41#8], rx := [0x42] }
     s.viable = true ∧ s.reader = .running ∧ s.stop = false ∧ s.held = none ∧ s.rx ≠ [] ∧ s.queue.length = 1000) ∧
    (let s := { start with queue := List.replicate 1000 [0x41#8], held := some [0x42] }
     s.viable = true ∧ s.reader = .running ∧ s.stop = false ∧ s.held = some [0x42] ∧ s.queue.length = 1000) ∧
    (let s := { start with queue := List.replicate 999 [0x41#8], held := some [0x42] }
     s.viable = true ∧ s.reader = .running ∧ s.stop = false ∧ s.held = some [0x42] ∧ s.queue.length < 1000) := by
  decide +kernel

theorem test_witness_ReaderExitsOnStop :
    let s := { start with stop := true, held := some [0x42] }
    s.viable = true ∧ s.reader = .running ∧ s.stop = true := by decide

theorem test_witness_ReadErrorEndsTheReader :
    (let s := { start with rx := [0x41] }
     s.viable = true ∧ s.reader = .running ∧ s.stop = false ∧ s.held = none ∧ s.rx ≠ []) ∧
    start.viable = true ∧ start.reader = .running ∧ start.stop = false ∧ start.held = none ∧ start.rx = [] := by decide

/-- The block fills a finite capacity exactly; it passes it by one. -/
theorem test_witness_ProcessorPopsABlock :
    let s := { start with cfg := { testCfg with bufCap := some 4 }, buf := [0x0C], queue := [[0x0B, 0x0A, 0x09]] }
    let s' := { s with cfg := { testCfg with bufCap := some 3 } }
    (s.viable = true ∧ s.phase = .poll ∧ s.stop = false ∧ s.queue = [0x0B, 0x0A, 0x09] :: [] ∧
      ∀ cap, s.cfg.bufCap = some cap → s.buf.length + [0x0B#8, 0x0A#8, 0x09#8].length ≤ cap) ∧
    (s'.viable = true ∧ s'.phase = .poll ∧ s'.stop = false ∧ s'.queue = [0x0B, 0x0A, 0x09] :: [] ∧
      s'.cfg.bufCap = some 3 ∧ 3 < s'.buf.length + [0x0B#8, 0x0A#8, 0x09#8].length) :=
  ⟨⟨rfl, rfl, rfl, rfl, fun _ h => by cases h; decide⟩, rfl, rfl, rfl, rfl, rfl, by decide⟩

theorem test_witness_DrainEndsBelowFourBytes :
    (draining (he.take 3)).viable = true ∧ (draining (he.take 3)).phase = .drain ∧
    (draining (he.take 3)).buf.length < 4 := by decide

theorem test_witness_StopWinsAtPoll :
    let s := { start with stop := true, queue := [hs] }
    s.viable = true ∧ s.phase = .poll ∧ s.stop = true := by decide

theorem test_witness_SupervisorRaisesStop :
    start.viable = true ∧ { start with reader := .exited }.reader = .exited ∧ start.reader = .running := by decide

theorem test_witness_DisabledAgentsChangeNothing :
    start.viable = true ∧ { start with phase := .stopped }.phase = .stopped ∧
    (start.phase = .poll ∧ start.stop = false ∧ start.queue = []) ∧
    enabled start .reader = false ∧ enabled { start with reader := .exited } .reader = false ∧
    enabled start .supervisor = false ∧
    enabled { start with reader := .exited, stop := true } .supervisor = false := by decide

theorem test_witness_StepRunsTheDecodedOperation :
    let s := { draining (he ++ [0x41]) with turns := [pTurn] }
    s.viable = true ∧ s.turns = .processor .ok true :: [] ∧ s.phase = .drain ∧
    decode .rx s.buf = .ok (.opHe, [0x41]) ∧ ∃ t, step s = .next t := ⟨rfl, rfl, rfl, rfl, _, rfl⟩

/-- A state in a drain with a Header frame open and a marker next. -/
theorem test_inv_inFrame : Inv { inFrame .receivingHeader [0x07] he with turns := [pTurn] } where
  buf_short := by decide
  acc_idle := by decide
  line_cap := by decide
  line_open := by decide
  queue_cap := by decide
  blocks_nonempty := by decide
  held_nonempty := by decide
  held_running := by decide
  envs_ok := nofun
  txfail_logged := by decide
  queries := by decide
  acc_cap := nofun
  buf_cap := nofun

theorem test_witness_StepKeepsInvariant :
    Inv { inFrame .receivingHeader [0x07] he with turns := [pTurn] } ∧
    ∃ t, step { inFrame .receivingHeader [0x07] he with turns := [pTurn] } = .next t := ⟨test_inv_inFrame, _, rfl⟩

theorem test_witness_OutputsOnlyGrow :
    ∃ t, step { inFrame .receivingHeader [0x07] he with turns := [pTurn] } = .next t := ⟨_, rfl⟩

theorem test_witness_ConfigurationNeverChanges :
    ∃ t, step { draining hs with turns := [pTurn] } = .next t := ⟨_, rfl⟩

theorem test_witness_TerminalStatesStay :
    let s := { start with phase := .stopped, stop := true, rx := [0x41], turns := [.reader .error] }
    let s' := { start with phase := .stopped, rx := [0x41], turns := [.reader .error] }
    let s'' := { start with reader := .exited, turns := [.supervisor] }
    (s.stop = true ∧ s.phase = .stopped ∧ ∃ t, step s = .next t) ∧
    (s'.phase = .stopped ∧ ∃ t, step s' = .next t) ∧
    (s''.reader = .exited ∧ ∃ t, step s'' = .next t) := ⟨⟨rfl, rfl, _, rfl⟩, ⟨rfl, _, rfl⟩, rfl, _, rfl⟩

theorem test_witness_StreamIsConsumedInOrder :
    (let s := { draining hs with turns := [pTurn] }
     s.turns = pTurn :: [] ∧ (∃ t, step s = .next t) ∧ s.stop = false) ∧
    (let s := { start with stop := true, turns := [.arrive [0x41]] }
     s.turns = .arrive [0x41] :: [] ∧ (∃ t, step s = .next t) ∧ s.held = none) :=
  ⟨⟨rfl, ⟨_, rfl⟩, rfl⟩, rfl, ⟨_, rfl⟩, rfl⟩

theorem test_witness_DefaultCapacitiesNeverStick :
    start.viable = true ∧ start.cfg.accCap = none ∧ start.cfg.bufCap = none := by decide

theorem test_witness_UnsupportedEnvironmentNeverStarts : { start with viable := false }.viable = false := by decide

theorem test_witness_EveryDrainEnds :
    (draining (hs ++ [0x41])).viable = true ∧ (draining (hs ++ [0x41])).cfg.accCap = none ∧
    (draining (hs ++ [0x41])).phase = .drain := by decide

theorem test_witness_EveryMarkerIsReached :
    let s := draining ([0x55] ++ Wire.u32le Wire.chunkEnd ++ [0x41])
    s.viable = true ∧ s.cfg.accCap = none ∧ s.phase = .drain ∧ Wire.chunkEnd ∈ Wire.frameMarkers ∧
    s.buf = [0x55] ++ Wire.u32le Wire.chunkEnd ++ [0x41] := by decide

theorem test_markerFree_p8 : MarkerFree p8 := by
  intro i hi
  have h : i < 4 := by simp [p8] at hi; omega
  rcases i with _ | _ | _ | _ | i
  · decide
  · decide
  · decide
  · decide
  · omega

theorem test_witness_MarkerFreeFrameIsProcessedIntact :
    let s := draining (wireFrame .header p8 ++ [0x41])
    s.viable = true ∧ s.cfg.accCap = none ∧ s.phase = .drain ∧ MarkerFree p8 ∧
    s.buf = wireFrame .header p8 ++ [0x41] := ⟨rfl, rfl, rfl, test_markerFree_p8, rfl⟩

theorem test_payload_p8 : payloadBytes testCfg .header 0#32 [0xA0] = p8 := by decide +kernel

theorem test_witness_WellFormedFrameIsDeliveredAndAcknowledged :
    let s := draining (frameBytes testCfg .header 0#32 [0xA0] ++ [])
    let f : Answers := fun _ => (.ok, true)
    s.viable = true ∧ s.cfg.accCap = none ∧ s.phase = .drain ∧ ([0xA0] : Bytes).length < 65536 ∧
    MarkerFree (payloadBytes s.cfg .header 0#32 [0xA0]) ∧ s.buf = frameBytes s.cfg .header 0#32 [0xA0] ++ [] ∧
    ackRequested s.cfg.ackTruth ((docDecode s.cfg.docDecode [0xA0]).getD s.cfg.errDoc) = true ∧
    (f (s.pos + (payloadBytes s.cfg .header 0#32 [0xA0]).length + 4)).1 = .ok :=
  ⟨rfl, rfl, rfl, by decide, by
    show MarkerFree (payloadBytes testCfg .header 0#32 [0xA0])
    rw [test_payload_p8]; exact test_markerFree_p8, rfl, by decide, rfl⟩

theorem test_witness_StartMarkerForgetsThePast :
    let s := draining (Wire.u32le Wire.chunkStart ++ [0x41])
    let s' := inFrame .receivingHeader p8 (Wire.u32le Wire.chunkStart ++ [0x41])
    s.viable = true ∧ s'.viable = true ∧ s'.cfg = s.cfg ∧ s.phase = .drain ∧ s'.phase = .drain ∧
    s.buf = Wire.u32le Wire.chunkStart ++ [0x41] ∧ s'.buf = s.buf ∧ s'.queue = s.queue ∧ s'.stop = s.stop ∧
    (∀ u ∈ [pTurn], ∃ w c, u = .processor w c) ∧
    ∃ t, Sys2Proof.core.run [pTurn].length { s with turns := [pTurn] } = .next t :=
  ⟨rfl, rfl, rfl, rfl, rfl, rfl, rfl, rfl, rfl, by simp [pTurn], _, rfl⟩

/-- A step that finalizes, and a step of P that brings a failing answer and writes nothing. -/
theorem test_witness_TxIsTheAcksOfTheEnvelopes :
    (let s := { inFrame .receivingHeader p8 he with turns := [pTurn] }
     ∃ t, step s = .next t ∧ t.txfail = s.txfail ∧ s.tx = ackStream s.envs) ∧
    (let s := { draining hs with turns := [.processor (.fail 0) true] }
     ∃ t, step s = .next t ∧ t.txfail = s.txfail ∧ s.tx = ackStream s.envs) :=
  ⟨⟨_, rfl, rfl, rfl⟩, _, rfl, rfl, rfl⟩

/-- The same two bytes in one block and in two. -/
theorem test_witness_BlockBoundariesDoNotMatter :
    let f : Answers := fun _ => (.ok, true)
    start.phase = .poll ∧ start.stop = false ∧ [[0x41#8, 0x42#8]].flatten = [[0x41#8], [0x42#8]].flatten ∧
    (∃ t, processorRun f 2 { start with queue := [[0x41, 0x42]] } = .next t ∧ t.phase = .poll ∧ t.queue = []) ∧
    (∃ t, processorRun f 4 { start with queue := [[0x41], [0x42]] } = .next t ∧ t.phase = .poll ∧ t.queue = []) ∧
    start.buf.length ≤ 3 :=
  ⟨rfl, rfl, rfl, ⟨_, rfl, rfl, rfl⟩, ⟨_, rfl, rfl, rfl⟩, by decide⟩

end Sys2Proof.Tests
end

section
/-! PROOFS. The state after reset (10_state.md R37). -/

namespace Sys2Proof.Machine

/-- Settles O43: each row of R37's table is a field of the literal `State.reset`, so each conjunct is read off by
projection. -/
theorem resetValues : Obligations.ResetValues :=
  ⟨rfl, rfl, rfl, rfl, rfl, rfl, rfl, rfl, rfl, rfl, rfl, rfl, rfl, rfl⟩

end Sys2Proof.Machine
end

section
/-! PROOFS. The lookahead decode as the priority table of 30_encoding.md R72, over the bytes of RX. -/

namespace Sys2Proof.Wire

/-- The low byte of a little-endian read is the byte it starts at. -/
theorem le32_extractLsb'_zero (b : Bytes) (o : Nat) : (le32 b o).extractLsb' 0 8 = byteAt b o := by
  apply BitVec.eq_of_toNat_eq
  have hx := (byteAt b o).isLt
  simp only [le32, BitVec.extractLsb'_toNat, toNat_cat, Nat.shiftRight_eq_div_pow]
  omega

end Sys2Proof.Wire

namespace Sys2Proof

/-- Four bytes are enough for a decision, which the window alone makes (R73). -/
theorem decode_rx_of_four_le {b : Bytes} (hb : 4 ≤ b.length) :
    decode .rx b = .ok (decodeWindow (Wire.le32 b 0), b.drop (decodeWindow (Wire.le32 b 0)).consumes) :=
  if_neg (Nat.not_lt.mpr hb)

/-- A window whose operation is known: the operation, and the bytes after those it consumes. -/
theorem decode_rx_of_window {b : Bytes} {w : Word} {i : Instr} (hb : 4 ≤ b.length) (hi : decodeWindow w = i)
    (hw : Wire.le32 b 0 = w) : decode .rx b = .ok (i, b.drop i.consumes) := by
  subst hi hw
  exact decode_rx_of_four_le hb

/-- Priority 5 of R72: every word but the four markers is `OP_DATA`, with its low byte as the byte to consume. -/
theorem decodeWindow_of_not_mem_frameMarkers {w : Word} (hw : w ∉ Wire.frameMarkers) :
    decodeWindow w = .opData (w.extractLsb' 0 8) (w.extractLsb' 8 24) := by
  obtain ⟨rfl, _⟩ | ⟨rfl, _⟩ | ⟨rfl, _⟩ | ⟨rfl, _⟩ | ⟨_, hdata⟩ := decodeWindow_cases w
  · exact absurd (by decide) hw
  · exact absurd (by decide) hw
  · exact absurd (by decide) hw
  · exact absurd (by decide) hw
  · exact hdata

/-- `OP_DATA` on RX carries the first byte and consumes it alone. -/
theorem decode_rx_cons_opData {x : Byte} {b : Bytes} (hb : 4 ≤ (x :: b).length)
    (hw : Wire.le32 (x :: b) 0 ∉ Wire.frameMarkers) :
    decode .rx (x :: b) = .ok (.opData x ((Wire.le32 (x :: b) 0).extractLsb' 8 24), b) := by
  have hfirst : (Wire.le32 (x :: b) 0).extractLsb' 0 8 = x := Wire.le32_extractLsb'_zero (x :: b) 0
  have hdata := decodeWindow_of_not_mem_frameMarkers hw
  rw [hfirst] at hdata
  exact decode_rx_of_window hb hdata rfl

/-- Settles O1, row by row of R72's table: a marker's row is the decode of that one word, and the row of `OP_DATA` is
the decode of a list with a head. -/
theorem everyWindowSelectsItsOperation : Obligations.EveryWindowSelectsItsOperation := by
  intro b hb
  refine ⟨decode_rx_of_window hb rfl, decode_rx_of_window hb rfl, decode_rx_of_window hb rfl,
    decode_rx_of_window hb rfl, fun hw => ?_⟩
  cases b with
  | nil => simp at hb
  | cons x b => exact ⟨x, _, rfl, decode_rx_cons_opData hb hw⟩

end Sys2Proof
end

section
/-! PROOFS. The Processor's turn in a drain with no whole lookahead window left (41_intake.md R115). -/

namespace Sys2Proof.Machine

/-- A turn of P is P's step with the turn's answers latched. -/
theorem step_processor_cons (s : State) (ts : List Turn) (w : WriteAnswer) (c : Bool) (hv : s.viable = true) :
    step { s with turns := .processor w c :: ts } = processorStep (withAnswers w c { s with turns := ts }) :=
  step_cons s (.processor w c) ts hv

/-- In `Drain` the step of P is the step of the drain. -/
theorem processorStep_of_drain {s : State} (hp : s.phase = .drain) : processorStep s = drainStep s := by
  simp only [processorStep, hp]

/-- Below one window the drain decodes nothing: it only hands over to `Poll`. -/
theorem drainStep_of_length_lt_four {s : State} (hb : s.buf.length < 4) :
    drainStep s = .next { s with phase := .poll } :=
  if_pos hb

end Sys2Proof.Machine

namespace Sys2Proof

open Sys2Proof.Machine

/-- Settles O38: neither the schedule nor the latched answers touch `phase` or `buf`, so P's step is the drain's, on a
`buf` that is too short for a window. -/
theorem drainEndsBelowFourBytes : Obligations.DrainEndsBelowFourBytes := by
  intro s ts w c hv hp hb
  calc step { s with turns := .processor w c :: ts }
      = processorStep (withAnswers w c { s with turns := ts }) := step_processor_cons s ts w c hv
    _ = drainStep (withAnswers w c { s with turns := ts }) := processorStep_of_drain hp
    _ = .next { s with turns := ts, writeAnswer := w, completeAnswer := c, phase := .poll } :=
      drainStep_of_length_lt_four hb

end Sys2Proof
end

section
/-! PROOFS. The five operations of the Frame Assembler, state by state (42_framing.md R132-R136). -/

namespace Sys2Proof.Machine

/-- A start marker does not look at the state it finds (R132). -/
theorem exec_opHs (s : State) : exec .opHs s = .next (openFrame .receivingHeader (consume 4 s)) := rfl

/-- A start marker does not look at the state it finds (R134). -/
theorem exec_opCs (s : State) : exec .opCs s = .next (openFrame .receivingChunk (consume 4 s)) := rfl

/-- An end marker is consumed in every state; only its own kind's open frame is processed (R133). -/
theorem exec_opHe (s : State) : exec .opHe s =
    .next (if s.fsm = .receivingHeader then processFrame .header s.acc (closeFrame (consume 4 s))
      else consume 4 s) := by
  cases hf : s.fsm with
  | receivingHeader => simp [exec, execOpHe, hf]
  | idle | receivingChunk => simp [exec, execOpHe, hf]

/-- An end marker is consumed in every state; only its own kind's open frame is processed (R135). -/
theorem exec_opCe (s : State) : exec .opCe s =
    .next (if s.fsm = .receivingChunk then processFrame .chunk s.acc (closeFrame (consume 4 s))
      else consume 4 s) := by
  cases hf : s.fsm with
  | receivingChunk => simp [exec, execOpCe, hf]
  | idle | receivingHeader => simp [exec, execOpCe, hf]

/-- Outside any frame a data byte is noise (R136). -/
theorem exec_opData_of_idle {s : State} (hf : s.fsm = .idle) (x : Byte) (ahead : BitVec 24) :
    exec (.opData x ahead) s = .next (consume 1 s) := by
  simp only [exec, execOpData, hf]

/-- Inside a frame of either kind a data byte is accumulated while the capacity has room (R136). -/
theorem exec_opData_of_ne_idle {s : State} (hf : s.fsm ≠ .idle) (x : Byte) (ahead : BitVec 24) :
    exec (.opData x ahead) s =
      if s.cfg.accCap = some s.acc.length then .fault .accCapReached else .next (appendAcc x (consume 1 s)) := by
  cases hs : s.fsm with
  | idle => exact absurd hs hf
  | receivingHeader | receivingChunk => simp only [exec, execOpData, hs]

end Sys2Proof.Machine

namespace Sys2Proof

open Sys2Proof.Machine

/-- Settles O8: the window is the first row of the priority table, and the next state is `openFrame` after `consume`
written out field by field. -/
theorem opHsOpensHeaderFrame : Obligations.OpHsOpensHeaderFrame :=
  ⟨rfl, exec_opHs⟩

/-- Settles O9: the window is the third row of the priority table, and the next state is `openFrame` after `consume`
written out field by field. -/
theorem opCsOpensChunkFrame : Obligations.OpCsOpensChunkFrame :=
  ⟨rfl, exec_opCs⟩

/-- Settles O10: the two branches of `exec_opHe`. -/
theorem opHeFinalizesHeaderFrame : Obligations.OpHeFinalizesHeaderFrame := by
  refine ⟨rfl, fun s => ⟨fun hopen => ?_, fun hclosed => ?_⟩⟩
  · rw [exec_opHe, if_pos hopen]; rfl
  · rw [exec_opHe, if_neg hclosed]; rfl

/-- Settles O11: the two branches of `exec_opCe`. -/
theorem opCeFinalizesChunkFrame : Obligations.OpCeFinalizesChunkFrame := by
  refine ⟨rfl, fun s => ⟨fun hopen => ?_, fun hclosed => ?_⟩⟩
  · rw [exec_opCe, if_pos hopen]; rfl
  · rw [exec_opCe, if_neg hclosed]; rfl

/-- Settles O12: the last row of the priority table, then `OP_DATA` outside any frame, and inside one below the
capacity and at it, where the fault is no next state. -/
theorem opDataMovesOneByte : Obligations.OpDataMovesOneByte := by
  refine ⟨fun w hw => ⟨_, decodeWindow_of_not_mem_frameMarkers hw⟩, fun s x ahead => ⟨?_, ?_, ?_⟩⟩
  · intro hidle
    exact exec_opData_of_idle hidle x ahead
  · intro hopen hroom
    rw [exec_opData_of_ne_idle hopen, if_neg hroom]; rfl
  · intro hopen hfull t
    rw [exec_opData_of_ne_idle hopen, if_pos hfull]
    exact nofun

end Sys2Proof
end

section
/-! PROOFS. Encoding and decoding undo each other (30_encoding.md sections 1, 2 and 4). -/

namespace Sys2Proof.Wire

/-- A read at an offset is a read at the head of what is left there. -/
theorem le32_drop (b : Bytes) (o : Nat) : le32 (b.drop o) 0 = le32 b o := by
  simp [le32, byteAt]

/-- A word is read back wherever it was written. -/
theorem le32_append_u32le_append (front : Bytes) (w : Word) (back : Bytes) :
    le32 (front ++ (u32le w ++ back)) front.length = w := by
  rw [le32_append_right _ le_rfl, Nat.sub_self, le32_u32le_append]

/-- The four bytes at an offset are the ones their word is written as. -/
theorem u32le_le32 {b : Bytes} {o : Nat} (h : o + 4 ≤ b.length) : u32le (le32 b o) = (b.drop o).take 4 := by
  have hlen : 4 ≤ (b.drop o).length := by rw [List.length_drop]; omega
  rw [← le32_drop]
  match b.drop o, hlen with
  | x0 :: x1 :: x2 :: x3 :: r, _ => exact u32le_le32_cons x0 x1 x2 x3 r

/-- The first and the last 24 bits of a window, put together, are the window. -/
theorem extractLsb'_append_extractLsb' (w : Word) : (w.extractLsb' 8 24 ++ w.extractLsb' 0 8 : Word) = w := by
  apply BitVec.eq_of_toNat_eq
  have hw := w.isLt
  simp only [toNat_cat, BitVec.extractLsb'_toNat, Nat.shiftRight_eq_div_pow]
  omega

/-- The byte of a window built from its first byte and the rest. -/
theorem append_extractLsb'_low (x : Byte) (ahead : BitVec 24) : (ahead ++ x : Word).extractLsb' 0 8 = x := by
  apply BitVec.eq_of_toNat_eq
  have hx := x.isLt
  simp only [toNat_cat, BitVec.extractLsb'_toNat, Nat.shiftRight_eq_div_pow]
  omega

/-- The rest of a window built from its first byte and the rest. -/
theorem append_extractLsb'_high (x : Byte) (ahead : BitVec 24) : (ahead ++ x : Word).extractLsb' 8 24 = ahead := by
  apply BitVec.eq_of_toNat_eq
  have hx := x.isLt
  have ha := ahead.isLt
  simp only [toNat_cat, BitVec.extractLsb'_toNat, Nat.shiftRight_eq_div_pow]
  omega

end Sys2Proof.Wire

namespace Sys2Proof

/-- A decode of RX that answers read a whole window, and gave its operation and the bytes that one leaves. -/
theorem decode_rx_eq_ok {b r : Bytes} {i : Instr} (h : decode .rx b = .ok (i, r)) :
    4 ≤ b.length ∧ i = decodeWindow (Wire.le32 b 0) ∧ r = b.drop i.consumes := by
  by_cases hb : 4 ≤ b.length
  · rw [decode_rx_of_four_le hb] at h
    cases h
    exact ⟨hb, rfl, rfl⟩
  · rw [show decode .rx b = .error .windowShort from if_pos (Nat.lt_of_not_le hb)] at h
    cases h

/-- A decode of TX that answers read a whole ACK frame. -/
theorem decode_tx_eq_ok {b r : Bytes} {i : Instr} (h : decode .tx b = .ok (i, r)) :
    12 ≤ b.length ∧ Wire.le32 b 0 = Wire.ackStart ∧ Wire.le32 b 8 = Wire.ackEnd ∧
      i = .ackFrame (Wire.le32 b 4) ∧ r = b.drop 12 := by
  simp only [decode, decodeTx] at h
  split at h
  · cases h
  split at h
  · cases h
  split at h
  · cases h
  · cases h
    simp_all

/-- The bytes between an ACK frame's markers name its operation. -/
theorem decode_tx_of_words {b : Bytes} {code : Word} (hb : 12 ≤ b.length) (hs : Wire.le32 b 0 = Wire.ackStart)
    (hc : Wire.le32 b 4 = code) (he : Wire.le32 b 8 = Wire.ackEnd) :
    decode .tx b = .ok (.ackFrame code, b.drop 12) := by
  simp [decode, decodeTx, hs, hc, he, Nat.not_lt.mpr hb]

/-- The window a lookahead operation was decoded from is its encoding. -/
theorem encode_decodeWindow (w : Word) : encode (decodeWindow w) = Wire.u32le w := by
  obtain ⟨rfl, h⟩ | ⟨rfl, h⟩ | ⟨rfl, h⟩ | ⟨rfl, h⟩ | ⟨_, h⟩ := decodeWindow_cases w
  · rw [h]; rfl
  · rw [h]; rfl
  · rw [h]; rfl
  · rw [h]; rfl
  · rw [h, encode, Wire.extractLsb'_append_extractLsb']

/-- What the lookahead selects is well formed: an `OP_DATA` is never a marker's window. -/
theorem decodeWindow_wf (w : Word) : (decodeWindow w).wf = true := by
  obtain ⟨_, h⟩ | ⟨_, h⟩ | ⟨_, h⟩ | ⟨_, h⟩ | ⟨hw, h⟩ := decodeWindow_cases w
  · rw [h]; rfl
  · rw [h]; rfl
  · rw [h]; rfl
  · rw [h]; rfl
  · rw [h, Instr.wf, Wire.extractLsb'_append_extractLsb']
    exact decide_eq_true hw

/-- A well-formed `OP_DATA` is what its own window selects. -/
theorem decodeWindow_append {x : Byte} {ahead : BitVec 24} (h : (Instr.opData x ahead).wf = true) :
    decodeWindow (ahead ++ x) = .opData x ahead := by
  rw [decodeWindow_of_not_mem_frameMarkers (of_decide_eq_true h), Wire.append_extractLsb'_low,
    Wire.append_extractLsb'_high]

/-- A window in front of any bytes decodes to the operation it selects. -/
theorem decode_rx_u32le_append {w : Word} {i : Instr} (rest : Bytes) (h : decodeWindow w = i) :
    decode .rx (Wire.u32le w ++ rest) = .ok (i, (Wire.u32le w ++ rest).drop i.consumes) :=
  decode_rx_of_window (by simp) h (Wire.le32_u32le_append w rest)

/-- Settles O2, operation by operation: a marker's or a data window selects its operation, and an ACK frame's three
words are read back at offsets 0, 4 and 8. -/
theorem decodeInvertsEncode : Obligations.DecodeInvertsEncode := by
  intro i rest hwf
  cases i with
  | opHs => exact decode_rx_u32le_append rest rfl
  | opHe => exact decode_rx_u32le_append rest rfl
  | opCs => exact decode_rx_u32le_append rest rfl
  | opCe => exact decode_rx_u32le_append rest rfl
  | opData x ahead => exact decode_rx_u32le_append rest (decodeWindow_append hwf)
  | ackFrame code =>
    have hcut : ackBytes code ++ rest =
        Wire.u32le Wire.ackStart ++ (Wire.u32le code ++ (Wire.u32le Wire.ackEnd ++ rest)) := by
      simp only [ackBytes, List.append_assoc]
    refine decode_tx_of_words (by simp [encode]) ?_ ?_ ?_
    · rw [encode, hcut, Wire.le32_u32le_append]
    · rw [encode, hcut]
      exact Wire.le32_append_u32le_append (Wire.u32le Wire.ackStart) code _
    · rw [encode, hcut, ← List.append_assoc]
      exact Wire.le32_append_u32le_append (Wire.u32le Wire.ackStart ++ Wire.u32le code) Wire.ackEnd rest

/-- Settles O3: a window is the word it is read as, and an ACK frame is its three words one after another. -/
theorem encodeInvertsDecode : Obligations.EncodeInvertsDecode := by
  constructor
  · intro b i r hb h
    obtain ⟨_, rfl, _⟩ := decode_rx_eq_ok h
    rw [encode_decodeWindow, Wire.u32le_le32 (by omega), List.drop_zero, ← hb, List.take_length]
  · intro b i r hb h
    obtain ⟨_, hs, he, rfl, _⟩ := decode_tx_eq_ok h
    have hlast : ((b.drop 4).drop 4).take 4 = (b.drop 4).drop 4 := List.take_of_length_le (by simp [hb])
    calc encode (.ackFrame (Wire.le32 b 4))
        = Wire.u32le (Wire.le32 b 0) ++ Wire.u32le (Wire.le32 b 4) ++ Wire.u32le (Wire.le32 b 8) := by
          rw [hs, he]; rfl
      _ = b.take 4 ++ ((b.drop 4).take 4 ++ (b.drop 4).drop 4) := by
          rw [Wire.u32le_le32 (by omega), Wire.u32le_le32 (by omega), Wire.u32le_le32 (by omega), List.drop_zero,
            List.append_assoc, ← hlast, List.drop_drop]
      _ = b := by rw [List.take_append_drop, List.take_append_drop]

/-- Settles O4: the two directions of `decode`, each by what it can answer. -/
theorem decodedOperationsAreWellFormed : Obligations.DecodedOperationsAreWellFormed := by
  intro d b i r h
  cases d with
  | rx =>
    obtain ⟨_, rfl, _⟩ := decode_rx_eq_ok h
    exact ⟨decodeWindow_wf _, decodeWindow_direction _⟩
  | tx =>
    obtain ⟨_, _, _, rfl, _⟩ := decode_tx_eq_ok h
    exact ⟨rfl, rfl⟩

/-- Settles O5: the six words are evaluated. -/
theorem sampleWordsDecode : Obligations.SampleWordsDecode :=
  ⟨rfl, rfl, rfl, rfl, rfl, rfl⟩

/-- Overlap-freeness as a computation over the list of the markers (R71). -/
theorem frameMarkers_all_overlapFree :
    (Wire.frameMarkers.all fun m => Wire.frameMarkers.all fun m' => [1, 2, 3].all fun k =>
      decide ((Wire.u32le m).drop (4 - k) ≠ (Wire.u32le m').take k)) = true := by decide

/-- Settles O6: four words, and at each of three lengths sixteen pairs of an end and a beginning. -/
theorem markersAreDistinctAndOverlapFree : Obligations.MarkersAreDistinctAndOverlapFree := by
  refine ⟨by decide, fun m hm m' hm' k hk => ?_⟩
  have hm := List.all_eq_true.mp frameMarkers_all_overlapFree m hm
  have hm' := List.all_eq_true.mp hm m' hm'
  exact of_decide_eq_true (List.all_eq_true.mp hm' k hk)

/-- Settles O7: a byte put in front of others is worth their number of bits more. -/
theorem readsAreLittleEndian : Obligations.ReadsAreLittleEndian := by
  intro b o
  simp only [Wire.le16, Wire.le32, Wire.toNat_cat]
  omega

end Sys2Proof
end

section
/-! PROOFS. What the operations change and what they leave as it was (42_framing.md sections 1 to 4, 45_ack.md). -/

namespace Sys2Proof.Machine

/-- A write the transport takes whole (R192). -/
theorem ackWrite_of_ok {s : State} (h : s.writeAnswer = .ok) (b : Bytes) :
    ackWrite b s = { s with tx := s.tx ++ b } := by
  simp only [ackWrite, h]

/-- A write that fails leaves its first bytes on the wire, and is counted and logged (R192). -/
theorem ackWrite_of_fail {s : State} {k : Fin 12} (h : s.writeAnswer = .fail k) (b : Bytes) :
    ackWrite b s =
      { s with tx := s.tx ++ b.take k.val, txfail := s.txfail + 1, logs := s.logs ++ [.txWriteError] } := by
  simp only [ackWrite, h, logEvent]

theorem exec_ackFrame (code : Word) (s : State) : exec (.ackFrame code) s = .next (ackWrite (ackBytes code) s) := rfl

/-- The gate shut: no byte, no failure (R190). -/
theorem ackGate_of_not_sent {e : Envelope} (h : ¬(e.ackRequested = true ∧ e.hashValid = true)) (s : State) :
    ackGate e s = s := by
  rw [ackGate, if_neg (by rwa [Bool.and_eq_true])]

/-- The gate open: the ACK frame of the received code is written (R190). -/
theorem ackGate_of_sent {e : Envelope} (h : e.ackRequested = true ∧ e.hashValid = true) (s : State) :
    ackGate e s = ackWrite (ackBytes e.receivedCode) s := by
  rw [ackGate, h.1, h.2]; rfl

/-- A rejected payload logs its reason (R137). -/
theorem processFrame_of_malformed {k : Kind} {p : Bytes} {s : State} {r : MalformedReason}
    (h : decodePayload s.cfg k p = .malformed r) : processFrame k p s = logEvent (.malformed k r) s := by
  simp only [processFrame, h]

/-- A payload with an envelope is processed as that envelope (R137). -/
theorem processFrame_of_env {k : Kind} {p : Bytes} {s : State} {e : Envelope}
    (h : decodePayload s.cfg k p = .env e) : processFrame k p s = processEnvelope k e s := by
  simp only [processFrame, h]

/-! The fields that processing a frame does not touch. -/

section
variable (k : Kind) (p : Bytes) (s : State)

@[simp] theorem processFrame_cfg : (processFrame k p s).cfg = s.cfg := by
  obtain ⟨_, _, _, _, _, h⟩ := processFrame_frame k p s; rw [h]
@[simp] theorem processFrame_viable : (processFrame k p s).viable = s.viable := by
  obtain ⟨_, _, _, _, _, h⟩ := processFrame_frame k p s; rw [h]
@[simp] theorem processFrame_fsm : (processFrame k p s).fsm = s.fsm := by
  obtain ⟨_, _, _, _, _, h⟩ := processFrame_frame k p s; rw [h]
@[simp] theorem processFrame_buf : (processFrame k p s).buf = s.buf := by
  obtain ⟨_, _, _, _, _, h⟩ := processFrame_frame k p s; rw [h]
@[simp] theorem processFrame_acc : (processFrame k p s).acc = s.acc := by
  obtain ⟨_, _, _, _, _, h⟩ := processFrame_frame k p s; rw [h]
@[simp] theorem processFrame_line : (processFrame k p s).line = s.line := by
  obtain ⟨_, _, _, _, _, h⟩ := processFrame_frame k p s; rw [h]
@[simp] theorem processFrame_phase : (processFrame k p s).phase = s.phase := by
  obtain ⟨_, _, _, _, _, h⟩ := processFrame_frame k p s; rw [h]
@[simp] theorem processFrame_queue : (processFrame k p s).queue = s.queue := by
  obtain ⟨_, _, _, _, _, h⟩ := processFrame_frame k p s; rw [h]
@[simp] theorem processFrame_stop : (processFrame k p s).stop = s.stop := by
  obtain ⟨_, _, _, _, _, h⟩ := processFrame_frame k p s; rw [h]
@[simp] theorem processFrame_reader : (processFrame k p s).reader = s.reader := by
  obtain ⟨_, _, _, _, _, h⟩ := processFrame_frame k p s; rw [h]
@[simp] theorem processFrame_held : (processFrame k p s).held = s.held := by
  obtain ⟨_, _, _, _, _, h⟩ := processFrame_frame k p s; rw [h]
@[simp] theorem processFrame_rx : (processFrame k p s).rx = s.rx := by
  obtain ⟨_, _, _, _, _, h⟩ := processFrame_frame k p s; rw [h]
@[simp] theorem processFrame_pos : (processFrame k p s).pos = s.pos := by
  obtain ⟨_, _, _, _, _, h⟩ := processFrame_frame k p s; rw [h]
@[simp] theorem processFrame_writeAnswer : (processFrame k p s).writeAnswer = s.writeAnswer := by
  obtain ⟨_, _, _, _, _, h⟩ := processFrame_frame k p s; rw [h]
@[simp] theorem processFrame_completeAnswer : (processFrame k p s).completeAnswer = s.completeAnswer := by
  obtain ⟨_, _, _, _, _, h⟩ := processFrame_frame k p s; rw [h]
@[simp] theorem processFrame_turns : (processFrame k p s).turns = s.turns := by
  obtain ⟨_, _, _, _, _, h⟩ := processFrame_frame k p s; rw [h]
@[simp] theorem processFrame_tick : (processFrame k p s).tick = s.tick := by
  obtain ⟨_, _, _, _, _, h⟩ := processFrame_frame k p s; rw [h]

end

/-- With a whole window left the drain runs the operation it selects (R116). -/
theorem drainStep_of_four_le {s : State} (hb : 4 ≤ s.buf.length) :
    drainStep s = exec (decodeWindow (peek4 s)) s :=
  if_neg (Nat.not_lt.mpr hb)

/-- An operation of the lookahead that completes has taken its bytes from the head of `buf`. -/
theorem exec_consumes {i : Instr} {s t : State} (hi : i.direction = .rx) (h : exec i s = .next t) :
    t.buf = s.buf.drop i.consumes ∧ t.pos = s.pos + i.consumes := by
  obtain ⟨f, _, hi' | hi', rfl⟩ | ⟨rfl, _, rfl⟩ | ⟨rfl, _, rfl⟩ | ⟨hi' | hi', rfl⟩ | ⟨x, ahead, rfl, _, rfl⟩ |
    ⟨x, ahead, rfl, _, _, rfl⟩ | ⟨c, rfl, _⟩ := exec_cases h
  · simp [hi'.1, Instr.consumes]
  · simp [hi'.1, Instr.consumes]
  · simp [Instr.consumes]
  · simp [Instr.consumes]
  · simp [hi'.1, Instr.consumes]
  · simp [hi'.1, Instr.consumes]
  · simp [Instr.consumes]
  · simp [Instr.consumes]
  · cases hi

end Sys2Proof.Machine

namespace Sys2Proof

open Sys2Proof.Machine

/-- Settles O15: bytes and position by `exec_consumes`, then `fsm` and `acc` in each way an operation can complete. -/
theorem assemblerTransitionTable : Obligations.AssemblerTransitionTable := by
  intro s t i hi h
  obtain ⟨hbuf, hpos⟩ := exec_consumes hi h
  refine ⟨hbuf, hpos, ?_⟩
  obtain ⟨f, _, ⟨rfl, rfl⟩ | ⟨rfl, rfl⟩, rfl⟩ | ⟨rfl, hf, rfl⟩ | ⟨rfl, hf, rfl⟩ | ⟨⟨rfl, hf⟩ | ⟨rfl, hf⟩, rfl⟩ |
    ⟨x, ahead, rfl, hf, rfl⟩ | ⟨x, ahead, rfl, hf, _, rfl⟩ | ⟨c, rfl, _⟩ := exec_cases h
  · simp
  · simp
  · simp [hf]
  · simp [hf]
  · cases hs : s.fsm with
    | receivingHeader => exact absurd hs hf
    | idle | receivingChunk => simp [hs]
  · cases hs : s.fsm with
    | receivingChunk => exact absurd hs hf
    | idle | receivingHeader => simp [hs]
  · simp [hf]
  · cases hs : s.fsm with
    | idle => exact absurd hs hf
    | receivingHeader | receivingChunk => simp [hs]
  · cases hi

/-- Settles O16: each way an operation can complete is made of updates of the frame registers and the ports. -/
theorem assemblerLeavesTheRestAlone : Obligations.AssemblerLeavesTheRestAlone := by
  intro s t i h
  obtain ⟨f, _, _, rfl⟩ | ⟨_, _, rfl⟩ | ⟨_, _, rfl⟩ | ⟨_, rfl⟩ | ⟨x, ahead, _, _, rfl⟩ | ⟨x, ahead, _, _, _, rfl⟩ |
    ⟨c, _, rfl⟩ := exec_cases h
  · simp
  · simp
  · simp
  · simp
  · simp
  · simp
  · obtain ⟨_, _, _, hw⟩ := ackWrite_frame (ackBytes c) s
    simp [hw]

/-- Settles O17: of the ways an operation can complete, the two that process a frame are excluded, and the write is no
lookahead's. -/
theorem onlyFinalizingReachesThePorts : Obligations.OnlyFinalizingReachesThePorts := by
  intro s t i hi hhe hce h
  obtain ⟨f, _, _, rfl⟩ | ⟨hop, hf, _⟩ | ⟨hop, hf, _⟩ | ⟨_, rfl⟩ | ⟨x, ahead, _, _, rfl⟩ | ⟨x, ahead, _, _, _, rfl⟩ |
    ⟨c, rfl, _⟩ := exec_cases h
  · simp
  · exact absurd ⟨hop, hf⟩ hhe
  · exact absurd ⟨hop, hf⟩ hce
  · simp
  · simp
  · simp
  · cases hi

/-- Settles O42: a decode that answers found a whole window, which is the one the drain looks at. -/
theorem stepRunsTheDecodedOperation : Obligations.StepRunsTheDecodedOperation := by
  intro s ts w c i rest hv ht hp hd
  obtain ⟨hlen, rfl, rfl⟩ := decode_rx_eq_ok hd
  have hstep : step s = exec (decodeWindow (Wire.le32 s.buf 0)) (withAnswers w c { s with turns := ts }) := by
    calc step s = processorStep (withAnswers w c { s with turns := ts }) := step_of_turn hv ht
      _ = drainStep (withAnswers w c { s with turns := ts }) := processorStep_of_drain hp
      _ = _ := drainStep_of_four_le hlen
  refine ⟨hstep, fun t h => ?_⟩
  rw [hstep] at h
  exact (exec_consumes (decodeWindow_direction _) h).1

/-- Settles O13: inside a frame, `OP_DATA` at its capacity. -/
theorem opDataSticksAtAccCap : Obligations.OpDataSticksAtAccCap := by
  intro s x ahead hopen hfull
  rw [exec_opData_of_ne_idle hopen, if_pos hfull]

/-- Settles O14: the frame is `ackBytes` with its two markers evaluated, and the write has its two outcomes. -/
theorem ackFrameWritesTwelveBytes : Obligations.AckFrameWritesTwelveBytes := by
  intro s code
  refine ⟨rfl, fun hok => ?_, fun k hfail => ?_⟩
  · rw [exec_ackFrame, ackWrite_of_ok hok]; rfl
  · rw [exec_ackFrame, ackWrite_of_fail hfail]; rfl

/-- Settles O20: the gate's two branches, the first of which is `ACK_FRAME`. -/
theorem ackGateRunsAckFrame : Obligations.AckGateRunsAckFrame := fun s _ =>
  ⟨fun hsent => congrArg Host.Outcome.next (ackGate_of_sent hsent s).symm, fun hshut => ackGate_of_not_sent hshut s⟩

/-- Settles O18: the end marker closes its own kind's frame, and the rejected payload logs its reason. -/
theorem malformedFrameOnlyLogs : Obligations.MalformedFrameOnlyLogs := by
  intro s r
  constructor
  · intro hopen hbad
    rw [exec_opHe, if_pos hopen, processFrame_of_malformed (by exact hbad)]; rfl
  · intro hopen hbad
    rw [exec_opCe, if_pos hopen, processFrame_of_malformed (by exact hbad)]; rfl

end Sys2Proof
end

section
/-! PROOFS. What an envelope adds to the ports (42_framing.md R137, 45_ack.md). -/

namespace Sys2Proof.Machine

/-- What `ProcessFrame` adds to each port, once it is known what the ACK gate adds. -/
theorem processEnvelope_of_ackGate {k : Kind} {e : Envelope} {s : State} {tx : Bytes} {txfail : Nat}
    {failure : List LogEvent}
    (h : ackGate e { s with logs := s.logs ++ envelopeEvents k e } =
      { s with tx := s.tx ++ tx, txfail := s.txfail + txfail, logs := s.logs ++ envelopeEvents k e ++ failure }) :
    processEnvelope k e s = { s with
      tx := s.tx ++ tx
      txfail := s.txfail + txfail
      logs := s.logs ++ envelopeEvents k e ++ failure
      envs := s.envs ++ [(k, e)]
      cq := s.cq ++ (if k = .chunk then [s.completeAnswer] else []) } := by
  cases k with
  | header => simp [processEnvelope, h, deliver]
  | chunk => simp [processEnvelope, h, deliver, queryComplete]

end Sys2Proof.Machine

namespace Sys2Proof

open Sys2Proof.Machine

/-- Settles O19: the gate shut, the gate open with a whole write, and the gate open with a failed one. -/
theorem envelopeReachesThePorts : Obligations.EnvelopeReachesThePorts := by
  intro s k p e he sent
  rw [processFrame_of_env he, List.append_assoc s.logs]
  by_cases hsent : sent
  · have hgate := ackGate_of_sent hsent { s with logs := s.logs ++ envelopeEvents k e }
    obtain hw | ⟨n, hw⟩ : s.writeAnswer = .ok ∨ ∃ n, s.writeAnswer = .fail n := by
      cases s.writeAnswer <;> simp
    · refine ⟨ackBytes e.receivedCode, 0, [],
        processEnvelope_of_ackGate (by simpa using hgate.trans (ackWrite_of_ok (by exact hw) _)),
        fun hno => absurd hsent hno, fun _ _ => ⟨rfl, rfl, rfl⟩, fun m _ hm => ?_⟩
      rw [hw] at hm
      cases hm
    · refine ⟨(ackBytes e.receivedCode).take n.val, 1, [.txWriteError],
        processEnvelope_of_ackGate (by simpa using hgate.trans (ackWrite_of_fail (by exact hw) _)),
        fun hno => absurd hsent hno, fun _ hm => ?_, fun m _ hm => ?_⟩
      · rw [hw] at hm
        cases hm
      · rw [hw] at hm
        cases hm
        exact ⟨rfl, rfl, rfl⟩
  · have hgate := ackGate_of_not_sent hsent { s with logs := s.logs ++ envelopeEvents k e }
    exact ⟨[], 0, [], processEnvelope_of_ackGate (by simpa using hgate), fun _ => ⟨rfl, rfl, rfl⟩,
      fun h => absurd h hsent, fun _ h => absurd h hsent⟩

end Sys2Proof
end
section
/-! PROOFS. The Packet Decoder (44_envelope.md) and the layout of a sender's payload (30_encoding.md R75, R82). -/

namespace Sys2Proof.Machine

/-- A payload too short for its length field (R171). -/
theorem rejection_eq_tooShort {k : Kind} {p : Bytes} :
    rejection k p = some .tooShort ↔ p.length < idBytes k + 2 := by
  unfold rejection
  split
  · simp [*]
  split
  · simp [*]
  split
  · simp [*]
  · simp [*]

/-- A payload too short for its data (R173). -/
theorem rejection_eq_lengthOverrun {k : Kind} {p : Bytes} :
    rejection k p = some .lengthOverrun ↔
      idBytes k + 2 ≤ p.length ∧ p.length < idBytes k + 2 + payloadLength k p := by
  unfold rejection
  split
  · simp; omega
  split
  · simp; omega
  split
  · simp; omega
  · simp; omega

/-- A payload too short for its code (R174). -/
theorem rejection_eq_codeTruncated {k : Kind} {p : Bytes} :
    rejection k p = some .codeTruncated ↔
      idBytes k + 2 + payloadLength k p ≤ p.length ∧ idBytes k + 2 ≤ p.length ∧
        p.length < idBytes k + 2 + payloadLength k p + 4 := by
  unfold rejection
  split
  · simp; omega
  split
  · simp; omega
  split
  · simp; omega
  · simp; omega

/-- `H` as the statements write it out (R75). -/
theorem idBytes_eq (k : Kind) : idBytes k = match k with | .header => 0 | .chunk => 4 := by
  cases k <;> rfl

/-- A payload that gives some envelope passes the three checks. -/
theorem exists_decodePayload_eq_env {c : Config} {k : Kind} {p : Bytes} :
    (∃ e, decodePayload c k p = .env e) ↔
      idBytes k + 2 ≤ p.length ∧ idBytes k + 6 + payloadLength k p ≤ p.length := by
  simp only [decodePayload_eq_env, exists_and_left, exists_eq, and_true, rejection_eq_none]

/-! What a payload followed by further bytes is read as. -/

section
variable {k : Kind} {p : Bytes} (extra : Bytes)

theorem payloadLength_append (h : idBytes k + 2 ≤ p.length) : payloadLength k (p ++ extra) = payloadLength k p := by
  rw [payloadLength, Wire.le16_append_left extra h, payloadLength]

theorem payloadId_append (h : idBytes k + 2 ≤ p.length) : payloadId k (p ++ extra) = payloadId k p := by
  cases k with
  | header => rfl
  | chunk =>
    have h4 : 0 + 4 ≤ p.length := by simp only [idBytes] at h; omega
    rw [payloadId, Wire.le32_append_left extra h4, payloadId]

theorem slice_append {i j : Nat} (h : j ≤ p.length) : Wire.slice (p ++ extra) i j = Wire.slice p i j := by
  by_cases hij : i ≤ j
  · rw [Wire.slice, Wire.slice, List.drop_append_of_le_length (by omega),
      List.take_append_of_le_length (by rw [List.length_drop]; omega)]
  · rw [Wire.slice, Wire.slice, Nat.sub_eq_zero_of_le (by omega), List.take_zero, List.take_zero]

theorem payloadData_append (h : idBytes k + 2 ≤ p.length) (hd : idBytes k + 2 + payloadLength k p ≤ p.length) :
    payloadData k (p ++ extra) = payloadData k p := by
  rw [payloadData, payloadLength_append extra h, slice_append extra hd, payloadData]

theorem payloadCode_append (h : idBytes k + 2 ≤ p.length) (hd : idBytes k + 6 + payloadLength k p ≤ p.length) :
    payloadCode k (p ++ extra) = payloadCode k p := by
  rw [payloadCode, payloadLength_append extra h, Wire.le32_append_left extra (by omega), payloadCode]

theorem checkedRegion_append (scope : CheckScope) (h : idBytes k + 2 ≤ p.length)
    (hd : idBytes k + 2 + payloadLength k p ≤ p.length) :
    checkedRegion scope k (p ++ extra) = checkedRegion scope k p := by
  cases scope with
  | dataOnly => exact payloadData_append extra h hd
  | wholePrefix => simp only [checkedRegion, payloadLength_append extra h, slice_append extra hd]

/-- Every field but `raw_payload` is read from the bytes up to the end of the code. -/
theorem envelopeOf_append (c : Config) (h : idBytes k + 2 ≤ p.length)
    (hd : idBytes k + 6 + payloadLength k p ≤ p.length) :
    envelopeOf c k (p ++ extra) = { envelopeOf c k p with rawPayload := p ++ extra } := by
  have hd' : idBytes k + 2 + payloadLength k p ≤ p.length := by omega
  simp only [envelopeOf, payloadData_append extra h hd', payloadId_append extra h, payloadCode_append extra h hd,
    checkedRegion_append extra _ h hd']

end

/-! The entries that decide a document's first match, and the truth of key 8. -/

/-- The first row of a key counts (log entries 5 and 7). -/
theorem find?_append_cons_of_key {κ ν : Type} [DecidableEq κ] {front back : List (κ × ν)} {key : κ} {v : ν}
    (h : ∀ r ∈ front, r.1 ≠ key) :
    ((front ++ (key, v) :: back).find? fun r => decide (r.1 = key)).map (·.2) = some v := by
  have hnone : front.find? (fun r => decide (r.1 = key)) = none := by
    rw [List.find?_eq_none]; simpa using h
  simp [List.find?_append, hnone]

/-- A key that no row has is not found. -/
theorem find?_eq_none_of_key {κ ν : Type} [DecidableEq κ] {rows : List (κ × ν)} {key : κ}
    (h : ∀ r ∈ rows, r.1 ≠ key) : (rows.find? fun r => decide (r.1 = key)).map (·.2) = none := by
  rw [Option.map_eq_none_iff, List.find?_eq_none]; simpa using h

/-- A binary64 number is a zero when its low 63 bits are 0, whatever its sign. -/
theorem extractLsb'_low63_eq_zero_iff (bits : BitVec 64) :
    bits.extractLsb' 0 63 = 0#63 ↔ bits = 0#64 ∨ bits = 0x8000000000000000#64 := by
  have hb := bits.isLt
  simp only [← BitVec.toNat_inj, BitVec.extractLsb'_toNat, Nat.shiftRight_eq_div_pow, BitVec.toNat_ofNat]
  omega

/-- D11's false values, sort by sort. -/
theorem truthiness_eq_false_iff (v : Value) : truthiness v = false ↔ v ∈ falseValues := by
  cases v with
  | bool b => simp [truthiness, falseValues]
  | null => simp [truthiness, falseValues]
  | undefined => simp [truthiness, falseValues]
  | int i => simp [truthiness, falseValues]
  | float bits => simp [truthiness, falseValues, extractLsb'_low63_eq_zero_iff, or_iff_not_imp_left]
  | text t => simp [truthiness, falseValues]
  | bytes b => simp [truthiness, falseValues]
  | array items => cases items <;> simp [truthiness, falseValues]
  | map entries => cases entries <;> simp [truthiness, falseValues]
  | tagged tag v => simp [truthiness, falseValues]

theorem ackRequested_of_docLookup_none {d : Doc} (t : AckTruth) (h : docLookup d 8 = none) :
    ackRequested t d = true := by
  simp only [ackRequested, h]

theorem ackRequested_of_docLookup_some {d : Doc} {v : Value} (t : AckTruth) (h : docLookup d 8 = some v) :
    ackRequested t d = ackTruth t v := by
  simp only [ackRequested, h]

/-- The error-marker document has no key 8 under a configuration R7 allows, so it asks for its ACK. -/
theorem docLookup_errDoc {c : Config} (h : c.wf = true) : docLookup c.errDoc 8 = none := by
  simp only [Config.wf, Bool.and_eq_true] at h
  obtain ⟨⟨herr, _⟩, _⟩ := h
  split at herr
  · rename_i key v hdoc
    rw [hdoc]
    exact find?_eq_none_of_key (by simpa using herr)
  · cases herr

end Sys2Proof.Machine

namespace Sys2Proof

open Sys2Proof.Machine

/-- Settles O21: the three checks in closed form. -/
theorem envelopeExactlyWhenLongEnough : Obligations.EnvelopeExactlyWhenLongEnough := by
  intro c k p h
  exact exists_decodePayload_eq_env

/-- Settles O22: one closed form for each reason. -/
theorem rejectionReasonsInOrder : Obligations.RejectionReasonsInOrder := by
  intro c k p h l
  exact ⟨decodePayload_eq_malformed.trans rejection_eq_tooShort,
    decodePayload_eq_malformed.trans rejection_eq_lengthOverrun,
    decodePayload_eq_malformed.trans rejection_eq_codeTruncated⟩

/-- Settles O24: a word is its unsigned number. -/
theorem hashValidIsCodeEquality : Obligations.HashValidIsCodeEquality := by
  intro c k p e he
  obtain ⟨_, rfl⟩ := decodePayload_eq_env.mp he
  simp only [envelopeOf, hashValid, decide_eq_true_eq, BitVec.toNat_inj]

/-- Settles O25: the document is then the error marker, which has no key 8. -/
theorem decodeFailureStillRequestsAck : Obligations.DecodeFailureStillRequestsAck := by
  intro c k p e hwf he hfail
  obtain ⟨_, rfl⟩ := decodePayload_eq_env.mp he
  have hnone : docDecode c.docDecode (payloadData k p) = none := Option.not_isSome_iff_eq_none.mp (by
    simpa [envelopeOf] using hfail)
  apply ackRequested_of_docLookup_none
  rw [hnone]
  exact docLookup_errDoc hwf

/-- Settles O26: the checks still pass on the longer payload, and no field looks past the code. -/
theorem surplusIsIgnored : Obligations.SurplusIsIgnored := by
  intro c k p extra e he
  obtain ⟨hpass, rfl⟩ := decodePayload_eq_env.mp he
  obtain ⟨hshort, hlong⟩ := rejection_eq_none.mp hpass
  refine decodePayload_eq_env.mpr ⟨rejection_eq_none.mpr ?_, (envelopeOf_append extra c hshort hlong).symm⟩
  rw [payloadLength_append extra hshort, List.length_append]
  omega

end Sys2Proof
end

section
/-! PROOFS. The fields of an envelope (44_envelope.md section 3), and those of a sender's payload (30_encoding.md R75,
R82). -/

namespace Sys2Proof.Machine

section
variable (k : Kind) (p : Bytes)

theorem payloadData_eq : payloadData k p = (p.drop (idBytes k + 2)).take (payloadLength k p) := by
  rw [payloadData, Wire.slice, Nat.add_sub_cancel_left]

theorem checkedRegion_wholePrefix :
    checkedRegion .wholePrefix k p = p.take (idBytes k + 2 + payloadLength k p) := by
  rw [checkedRegion, Wire.slice, List.drop_zero, Nat.sub_zero]

theorem checkedRegion_dataOnly : checkedRegion .dataOnly k p = payloadData k p := rfl

end

section
variable {c : Config} {k : Kind} {p : Bytes}

theorem calculatedCode_of_dataOnly (h : c.checkScope = .dataOnly) :
    (envelopeOf c k p).calculatedCode = checksum c.checksum (payloadData k p) := by
  simp only [envelopeOf, h, checkedRegion_dataOnly]

theorem calculatedCode_of_wholePrefix (h : c.checkScope = .wholePrefix) :
    (envelopeOf c k p).calculatedCode = checksum c.checksum (p.take (idBytes k + 2 + payloadLength k p)) := by
  simp only [envelopeOf, h, checkedRegion_wholePrefix]

theorem envelopeOf_doc_of_some {d : Doc} (h : docDecode c.docDecode (payloadData k p) = some d) :
    (envelopeOf c k p).doc = d ∧ (envelopeOf c k p).docOk = true := by
  simp only [envelopeOf, h, Option.getD_some, Option.isSome_some, and_self]

theorem envelopeOf_doc_of_none (h : docDecode c.docDecode (payloadData k p) = none) :
    (envelopeOf c k p).doc = c.errDoc ∧ (envelopeOf c k p).docOk = false := by
  simp only [envelopeOf, h, Option.getD_none, Option.isSome_none, and_self]

/-- `ack_requested` is read from the envelope's own document (R178). -/
theorem envelopeOf_ackRequested : (envelopeOf c k p).ackRequested = ackRequested c.ackTruth (envelopeOf c k p).doc :=
  rfl

theorem checksum_of_crc32 (h : c.checksum = .crc32) (b : Bytes) : checksum c.checksum b = crc32 b := by
  rw [h]; rfl

theorem checksum_of_seededHash32 (h : c.checksum = .seededHash32) (b : Bytes) :
    checksum c.checksum b = Config.seededHash32 b := by
  rw [h]; rfl

end

end Sys2Proof.Machine

namespace Sys2Proof

open Sys2Proof.Machine

/-- Settles O23, field by field: the region and the data are slices written as `take` and `drop`, a table's row and an
entry of key 8 count by `find?_append_cons_of_key`, and D11's values by `truthiness_eq_false_iff`. -/
theorem envelopeFields : Obligations.EnvelopeFields := by
  intro c k p e he h l data
  obtain ⟨_, rfl⟩ := decodePayload_eq_env.mp he
  have hh : idBytes k = h := idBytes_eq k
  have hl : payloadLength k p = l := by rw [payloadLength, hh]
  have hdata : payloadData k p = data := by rw [payloadData_eq, hh, hl]
  have hscope {region : Bytes} (hr : c.checkScope = .dataOnly ∧ region = data ∨
      c.checkScope = .wholePrefix ∧ region = p.take (h + 2 + l)) :
      (envelopeOf c k p).calculatedCode = checksum c.checksum region := by
    obtain ⟨hs, rfl⟩ | ⟨hs, rfl⟩ := hr
    · rw [calculatedCode_of_dataOnly hs, hdata]
    · rw [calculatedCode_of_wholePrefix hs, hh, hl]
  have hdoc {d : Doc} (hd : docDecode c.docDecode data = some d) := envelopeOf_doc_of_some (hdata.symm ▸ hd)
  have herr (hd : docDecode c.docDecode data = none) := envelopeOf_doc_of_none (hdata.symm ▸ hd)
  refine ⟨rfl, rfl, ?_, ?_, ?_, fun hs => hscope (.inl ⟨hs, rfl⟩), fun hs => hscope (.inr ⟨hs, rfl⟩),
    fun _ => hdoc, herr, ackRequested_of_docLookup_none _, fun _ => ackRequested_of_docLookup_some _, ?_, ?_, ?_, ?_,
    ?_, ?_⟩
  · rintro rfl; rfl
  · rintro rfl; rfl
  · simp only [envelopeOf, payloadCode, hh, hl]
  · intro region hr
    rw [hscope hr]
    exact ⟨fun hck => checksum_of_crc32 hck _, fun hck => checksum_of_seededHash32 hck _⟩
  · intro front d back htable hfront
    exact hdoc (by rw [htable]; exact find?_append_cons_of_key hfront)
  · intro rows htable hrows
    exact herr (by rw [htable]; exact find?_eq_none_of_key hrows)
  · intro hext
    simp only [envelopeOf, hext, docDecode, hdata, and_self]
  · intro hno
    exact ackRequested_of_docLookup_none _ (find?_eq_none_of_key hno)
  · intro front v back hentries hfront
    have hlookup : docLookup (envelopeOf c k p).doc 8 = some v := by
      rw [hentries]; exact find?_append_cons_of_key hfront
    rw [envelopeOf_ackRequested, ackRequested_of_docLookup_some _ hlookup]
    constructor
    · intro ht
      rw [ht]; exact truthiness_eq_false_iff v
    · intro ht
      rw [ht]; rfl

end Sys2Proof

namespace Sys2Proof.Machine

/-! The layout read back. -/

section
variable (c : Config) (k : Kind) (id : Word) (data : Bytes)

@[simp] theorem idField_length : (idField k id).length = idBytes k := by
  cases k <;> rfl

@[simp] theorem payloadFront_length : (payloadFront k id data).length = idBytes k + 2 + data.length := by
  simp [payloadFront, Nat.add_assoc]

@[simp] theorem payloadBytes_length : (payloadBytes c k id data).length = idBytes k + 2 + data.length + 4 := by
  simp [payloadBytes]

/-- A payload as its four parts. -/
theorem payloadBytes_eq : payloadBytes c k id data =
    idField k id ++ (Wire.u16le (BitVec.ofNat 16 data.length) ++ (data ++ Wire.u32le (payloadCheck c k id data))) := by
  simp only [payloadBytes, payloadFront, List.append_assoc]

theorem payloadLength_payloadBytes (hd : data.length < 65536) :
    payloadLength k (payloadBytes c k id data) = data.length := by
  rw [payloadLength, payloadBytes_eq, Wire.le16_append_right _ (by simp), idField_length, Nat.sub_self,
    Wire.le16_u16le_append, BitVec.toNat_ofNat, Nat.mod_eq_of_lt hd]

theorem payloadData_payloadBytes (hd : data.length < 65536) :
    payloadData k (payloadBytes c k id data) = data := by
  have hdrop : (payloadBytes c k id data).drop (idBytes k + 2) = data ++ Wire.u32le (payloadCheck c k id data) := by
    rw [payloadBytes_eq, ← List.append_assoc]
    exact List.drop_left' (by simp)
  rw [payloadData_eq, payloadLength_payloadBytes c k id data hd, hdrop, List.take_left]

theorem payloadCode_payloadBytes (hd : data.length < 65536) :
    payloadCode k (payloadBytes c k id data) = payloadCheck c k id data := by
  rw [payloadCode, payloadLength_payloadBytes c k id data hd, payloadBytes,
    Wire.le32_append_right _ (by simp), payloadFront_length, Nat.sub_self]
  exact Wire.le32_u32le_append _ []

/-- The code was computed over the region the receiver checks (R103). -/
theorem checksum_checkedRegion_payloadBytes (hd : data.length < 65536) :
    checksum c.checksum (checkedRegion c.checkScope k (payloadBytes c k id data)) = payloadCheck c k id data := by
  cases hs : c.checkScope with
  | dataOnly => simp only [checkedRegion_dataOnly, payloadData_payloadBytes c k id data hd, payloadCheck, hs]
  | wholePrefix =>
    rw [checkedRegion_wholePrefix, payloadLength_payloadBytes c k id data hd, payloadBytes,
      List.take_left' (by simp)]
    simp only [payloadCheck, hs]

theorem payloadId_payloadBytes : payloadId k (payloadBytes c k id data) =
    match k with | .header => -1 | .chunk => (id.toNat : Int) := by
  cases k with
  | header => rfl
  | chunk =>
    rw [payloadId, payloadBytes_eq]
    exact congrArg (fun w : Word => (w.toNat : Int)) (Wire.le32_u32le_append id _)

/-- A sender's payload passes the three checks. -/
theorem decodePayload_payloadBytes (hd : data.length < 65536) :
    decodePayload c k (payloadBytes c k id data) = .env (envelopeOf c k (payloadBytes c k id data)) := by
  refine decodePayload_eq_env.mpr ⟨rejection_eq_none.mpr ?_, rfl⟩
  rw [payloadLength_payloadBytes c k id data hd, payloadBytes_length]
  omega

end

end Sys2Proof.Machine

namespace Sys2Proof

open Sys2Proof.Machine

/-- Settles O27: the three checks pass, and each field reads back what the layout wrote there. -/
theorem wellFormedPayloadDecodes : Obligations.WellFormedPayloadDecodes := by
  intro c k id data hd code
  have hcode : (envelopeOf c k (payloadBytes c k id data)).receivedCode = code :=
    payloadCode_payloadBytes c k id data hd
  have hcalc : (envelopeOf c k (payloadBytes c k id data)).calculatedCode = code :=
    checksum_checkedRegion_payloadBytes c k id data hd
  have hdata := payloadData_payloadBytes c k id data hd
  refine ⟨_, decodePayload_payloadBytes c k id data hd, payloadId_payloadBytes c k id data, hcode, hcalc,
    decide_eq_true (hcode.trans hcalc.symm), ?_, ?_, envelopeOf_ackRequested⟩
  · simp only [envelopeOf, hdata]
  · simp only [envelopeOf, hdata]

end Sys2Proof
end

section
/-! PROOFS. The option `CRC32` as an injective function of its register (40_checksum.md R102, R106). -/

namespace Sys2Proof.Machine

/-- A shift right is undone by a shift left, but for the bit that fell out. -/
theorem getLsbD_ushiftRight_shiftLeft_one (c : Word) (i : Nat) :
    ((c >>> 1) <<< 1).getLsbD (i + 1) = c.getLsbD (i + 1) := by
  by_cases hi : i + 1 < 32
  · simp [hi, Nat.add_comm 1 i]
  · rw [BitVec.getLsbD_of_ge _ _ (Nat.le_of_not_lt hi), BitVec.getLsbD_of_ge _ _ (Nat.le_of_not_lt hi)]

/-- A round is undone by the one its top bit points to: the shift leaves that bit clear, and the polynomial sets it. -/
theorem crcUnround_crcRound (c : Word) : crcUnround (crcRound c) = c := by
  cases hlow : c.getLsbD 0 with
  | false =>
    have hround : crcRound c = c >>> 1 := by simp only [crcRound, hlow, cond_false]
    have htop : (c >>> 1).getLsbD 31 = false := by simp
    rw [hround, crcUnround, htop, cond_false]
    apply BitVec.eq_of_getLsbD_eq
    intro i hi
    cases i with
    | zero => rw [hlow]; simp
    | succ i => exact getLsbD_ushiftRight_shiftLeft_one c i
  | true =>
    have hround : crcRound c = (c >>> 1) ^^^ 0xEDB88320#32 := by simp only [crcRound, hlow, cond_true]
    have htop : ((c >>> 1) ^^^ 0xEDB88320#32).getLsbD 31 = true := by simp
    rw [hround, crcUnround, htop, cond_true, BitVec.xor_assoc, BitVec.xor_self, BitVec.xor_zero]
    apply BitVec.eq_of_getLsbD_eq
    intro i hi
    cases i with
    | zero => rw [hlow]; simp
    | succ i => rw [BitVec.getLsbD_or, getLsbD_ushiftRight_shiftLeft_one]; simp

theorem crcRound_injective : Function.Injective crcRound :=
  Function.LeftInverse.injective crcUnround_crcRound

theorem crcRounds_injective (n : Nat) : Function.Injective (crcRounds n) := by
  induction n with
  | zero => exact Function.injective_id
  | succ n ih => exact ih.comp crcRound_injective

/-- One byte taken in loses nothing of the register. -/
theorem crcByte_left_injective (x : Byte) : Function.Injective fun c => crcByte c x := by
  intro c d h
  exact (BitVec.xor_left_inj _).mp (crcRounds_injective 8 h)

/-- Nor of the byte. -/
theorem crcByte_right_injective (c : Word) : Function.Injective (crcByte c) := by
  intro x y h
  have hw : x.setWidth 32 = y.setWidth 32 := (BitVec.xor_right_inj _).mp (crcRounds_injective 8 h)
  have hn := congrArg BitVec.toNat hw
  rw [BitVec.toNat_setWidth_of_le (by decide), BitVec.toNat_setWidth_of_le (by decide)] at hn
  exact BitVec.eq_of_toNat_eq hn

/-- Two registers that differ still do after the same bytes. -/
theorem foldl_crcByte_injective (b : Bytes) : Function.Injective fun c => b.foldl crcByte c := by
  induction b with
  | nil => exact Function.injective_id
  | cons x b ih => exact ih.comp (crcByte_left_injective x)

end Sys2Proof.Machine

namespace Sys2Proof

open Sys2Proof.Machine

/-- Settles O28: three short lists are evaluated. -/
theorem crc32CheckValues : Obligations.Crc32CheckValues := by
  unfold Obligations.Crc32CheckValues
  decide +kernel

/-- Settles O29: after the common front the two bytes give different registers, and the common back and the final
complement keep them apart. -/
theorem crc32DetectsOneByteChange : Obligations.Crc32DetectsOneByteChange := by
  intro front back x y hxy h
  simp only [crc32, List.foldl_append, List.foldl_cons] at h
  have hback := (BitVec.xor_left_inj _).mp h
  exact hxy (crcByte_right_injective _ (foldl_crcByte_injective back hback))

end Sys2Proof
end

section
/-! PROOFS. The diagnostic feed (43_diagnostic.md R160, R164). -/

namespace Sys2Proof.Machine

/-- A text is recognised by one of the prefixes at its head. -/
theorem recognised_iff {prefixes : List Text} {t : Text} :
    recognised prefixes t = true ↔ ∃ p ∈ prefixes, p <+: t := by
  simp only [recognised, List.any_eq_true, List.isPrefixOf_iff_prefix]

/-- What one byte makes of the line, and the texts it forwards, by the configuration and the line alone (R160). -/
def lineFeed (c : Config) (line : Bytes) (b : Byte) : Bytes × List Text :=
  let l := line ++ [b]
  let t := textDecode c.textDecode l
  if b = Wire.newline then ([], if recognised c.diagPrefixes t then [stripFinalLF t] else [])
  else if c.diagCap < l.length then ([], [])
  else (l, [])

/-- The same for a list of bytes, first byte first. -/
def lineFeedAll (c : Config) (line : Bytes) : Bytes → Bytes × List Text
  | [] => (line, [])
  | b :: blk =>
    ((lineFeedAll c (lineFeed c line b).1 blk).1, (lineFeed c line b).2 ++ (lineFeedAll c (lineFeed c line b).1 blk).2)

/-- The model's feed of one byte is `lineFeed` on `line`, with the texts logged. -/
theorem diagFeed_eq (s : State) (b : Byte) : diagFeed s b = { s with
    line := (lineFeed s.cfg s.line b).1, logs := s.logs ++ (lineFeed s.cfg s.line b).2.map .diag } := by
  simp only [diagFeed, endLine, lineFeed]
  split
  · split
    · rfl
    · simp
  · split
    · simp
    · simp

/-- The model's feed of a block is `lineFeedAll` on `line`, with the texts logged. -/
theorem diagFeedAll_eq (blk : Bytes) (s : State) : diagFeedAll blk s = { s with
    line := (lineFeedAll s.cfg s.line blk).1, logs := s.logs ++ (lineFeedAll s.cfg s.line blk).2.map .diag } := by
  induction blk generalizing s with
  | nil => simp [diagFeedAll, lineFeedAll]
  | cons b blk ih =>
    rw [show diagFeedAll (b :: blk) s = diagFeedAll blk (diagFeed s b) from rfl, ih, diagFeed_eq]
    simp [lineFeedAll]

/-- Bytes fed in two parts, one after the other. -/
theorem lineFeedAll_append (c : Config) (line a b : Bytes) : lineFeedAll c line (a ++ b) =
    ((lineFeedAll c (lineFeedAll c line a).1 b).1,
      (lineFeedAll c line a).2 ++ (lineFeedAll c (lineFeedAll c line a).1 b).2) := by
  induction a generalizing line with
  | nil => simp [lineFeedAll]
  | cons x a ih => simp [lineFeedAll, ih]

end Sys2Proof.Machine

namespace Sys2Proof

open Sys2Proof.Machine

/-- Settles O31: `diagFeedAll_eq` names the line and the texts. -/
theorem diagFeedNeverTouchesFrameState : Obligations.DiagFeedNeverTouchesFrameState :=
  fun s blk => ⟨_, _, diagFeedAll_eq blk s⟩

/-- Settles O30: a newline with and without a recognised text, then a byte past the cap and one within it. -/
theorem diagFeedCutsLines : Obligations.DiagFeedCutsLines := by
  intro s b l t
  refine ⟨?_, ?_, ?_, ?_⟩
  · intro hb hp
    rw [diagFeed, if_pos (show b = Wire.newline from hb)]
    exact if_pos (recognised_iff.mpr hp)
  · intro hb hp
    rw [diagFeed, if_pos (show b = Wire.newline from hb)]
    exact if_neg (mt recognised_iff.mp hp)
  · intro hb hl
    rw [diagFeed, if_neg (show b ≠ Wire.newline from hb)]
    exact if_pos hl
  · intro hb hl
    rw [diagFeed, if_neg (show b ≠ Wire.newline from hb)]
    exact if_neg (Nat.not_lt.mpr hl)

end Sys2Proof
end
section
/-! PROOFS. The default text decode against the UTF-8 sequences of characters (43_diagnostic.md R162, log entry 8). -/

namespace Sys2Proof.Machine

theorem byteIn_eq_true {x : Byte} {lo hi : Nat} : byteIn x lo hi = true ↔ lo ≤ x.toNat ∧ x.toNat ≤ hi := by
  simp [byteIn]

/-- A byte is known by its number. -/
theorem byte_eq_ofNat {x : Byte} {n : Nat} (h : x.toNat = n) : x = BitVec.ofNat 8 n := by
  subst h; simp

/-- A byte written as a number it can hold has that number. -/
theorem toNat_ofNat_byte {n : Nat} (h : n < 256) : (BitVec.ofNat 8 n).toNat = n := by
  rw [BitVec.toNat_ofNat]; exact Nat.mod_eq_of_lt h

/-- The numbers of characters: no surrogates, none past 10FFFF. -/
theorem isValidChar_toNat (c : Char) : c.toNat < 0xD800 ∨ 0xDFFF < c.toNat ∧ c.toNat < 0x110000 := c.valid

theorem toNat_ofNat_char {n : Nat} (h : n < 0xD800 ∨ 0xDFFF < n ∧ n < 0x110000) : (Char.ofNat n).toNat = n := by
  rw [Char.toNat_ofNat]; exact if_pos h

/-! The sequence of a character, by the range of its number. -/

section
variable {c : Char}

theorem utf8Bytes_one (h : c.toNat < 0x80) : utf8Bytes c = [BitVec.ofNat 8 c.toNat] :=
  if_pos h

theorem utf8Bytes_two (hlo : 0x80 ≤ c.toNat) (h : c.toNat < 0x800) :
    utf8Bytes c = [BitVec.ofNat 8 (0xC0 + c.toNat / 64), BitVec.ofNat 8 (0x80 + c.toNat % 64)] := by
  simp only [utf8Bytes]
  rw [if_neg (by omega), if_pos h]

theorem utf8Bytes_three (hlo : 0x800 ≤ c.toNat) (h : c.toNat < 0x10000) :
    utf8Bytes c = [BitVec.ofNat 8 (0xE0 + c.toNat / 4096), BitVec.ofNat 8 (0x80 + c.toNat / 64 % 64),
      BitVec.ofNat 8 (0x80 + c.toNat % 64)] := by
  simp only [utf8Bytes]
  rw [if_neg (by omega), if_neg (by omega), if_pos h]

theorem utf8Bytes_four (hlo : 0x10000 ≤ c.toNat) :
    utf8Bytes c = [BitVec.ofNat 8 (0xF0 + c.toNat / 262144), BitVec.ofNat 8 (0x80 + c.toNat / 4096 % 64),
      BitVec.ofNat 8 (0x80 + c.toNat / 64 % 64), BitVec.ofNat 8 (0x80 + c.toNat % 64)] := by
  simp only [utf8Bytes]
  rw [if_neg (by omega), if_neg (by omega), if_neg (by omega)]

end

/-- Equality with a written-out byte, as equality of numbers. -/
theorem byte_eq_iff {x : Byte} {n : Nat} (h : n < 256) : x = BitVec.ofNat 8 n ↔ x.toNat = n := by
  rw [← BitVec.toNat_inj, toNat_ofNat_byte h]

/-- The range of a sequence's second byte is narrower behind one lead byte below and behind another above. -/
theorem secondByte_range_iff {b0 b1 : Byte} {n m lo lo' hi hi' : Nat} (hn : n < 256) (hm : m < 256) :
    ((if b0 = BitVec.ofNat 8 n then lo else lo') ≤ b1.toNat ∧
      b1.toNat ≤ if b0 = BitVec.ofNat 8 m then hi else hi') ↔
    ((b0.toNat = n → lo ≤ b1.toNat) ∧ (b0.toNat ≠ n → lo' ≤ b1.toNat)) ∧
      (b0.toNat = m → b1.toNat ≤ hi) ∧ (b0.toNat ≠ m → b1.toNat ≤ hi') := by
  simp only [byte_eq_iff hn, byte_eq_iff hm]
  exact and_congr (by split <;> simp [*]) (by split <;> simp [*])

/-! The bytes the decoder takes for a sequence are that character's sequence. -/

section
variable {b0 b1 b2 b3 : Byte}

theorem utf8Bytes_of_ascii (h0 : b0.toNat ≤ 0x7F) : utf8Bytes (Char.ofNat b0.toNat) = [b0] := by
  have hc : (Char.ofNat b0.toNat).toNat = b0.toNat := toNat_ofNat_char (by omega)
  rw [utf8Bytes_one (by omega), hc, ← byte_eq_ofNat rfl]

theorem utf8Bytes_of_two (h0 : 0xC2 ≤ b0.toNat ∧ b0.toNat ≤ 0xDF) (h1 : 0x80 ≤ b1.toNat ∧ b1.toNat ≤ 0xBF) :
    utf8Bytes (Char.ofNat ((b0.toNat - 0xC0) * 64 + tail6 b1)) = [b0, b1] := by
  have hc : (Char.ofNat ((b0.toNat - 0xC0) * 64 + tail6 b1)).toNat = (b0.toNat - 0xC0) * 64 + b1.toNat % 64 :=
    toNat_ofNat_char (by simp only [tail6]; omega)
  rw [utf8Bytes_two (by omega) (by omega), hc, ← byte_eq_ofNat (x := b0) (by omega),
    ← byte_eq_ofNat (x := b1) (by omega)]

theorem utf8Bytes_of_three (h0 : 0xE0 ≤ b0.toNat ∧ b0.toNat ≤ 0xEF)
    (h1 : (if b0 = 0xE0#8 then 0xA0 else 0x80) ≤ b1.toNat ∧ b1.toNat ≤ if b0 = 0xED#8 then 0x9F else 0xBF)
    (h2 : 0x80 ≤ b2.toNat ∧ b2.toNat ≤ 0xBF) :
    utf8Bytes (Char.ofNat ((b0.toNat - 0xE0) * 4096 + tail6 b1 * 64 + tail6 b2)) = [b0, b1, b2] := by
  rw [secondByte_range_iff (by decide) (by decide)] at h1
  have hc : (Char.ofNat ((b0.toNat - 0xE0) * 4096 + tail6 b1 * 64 + tail6 b2)).toNat =
      (b0.toNat - 0xE0) * 4096 + b1.toNat % 64 * 64 + b2.toNat % 64 :=
    toNat_ofNat_char (by simp only [tail6]; omega)
  rw [utf8Bytes_three (by omega) (by omega), hc, ← byte_eq_ofNat (x := b0) (by omega),
    ← byte_eq_ofNat (x := b1) (by omega), ← byte_eq_ofNat (x := b2) (by omega)]

theorem utf8Bytes_of_four (h0 : 0xF0 ≤ b0.toNat ∧ b0.toNat ≤ 0xF4)
    (h1 : (if b0 = 0xF0#8 then 0x90 else 0x80) ≤ b1.toNat ∧ b1.toNat ≤ if b0 = 0xF4#8 then 0x8F else 0xBF)
    (h2 : 0x80 ≤ b2.toNat ∧ b2.toNat ≤ 0xBF) (h3 : 0x80 ≤ b3.toNat ∧ b3.toNat ≤ 0xBF) :
    utf8Bytes (Char.ofNat ((b0.toNat - 0xF0) * 262144 + tail6 b1 * 4096 + tail6 b2 * 64 + tail6 b3)) =
      [b0, b1, b2, b3] := by
  rw [secondByte_range_iff (by decide) (by decide)] at h1
  have hc : (Char.ofNat ((b0.toNat - 0xF0) * 262144 + tail6 b1 * 4096 + tail6 b2 * 64 + tail6 b3)).toNat =
      (b0.toNat - 0xF0) * 262144 + b1.toNat % 64 * 4096 + b2.toNat % 64 * 64 + b3.toNat % 64 :=
    toNat_ofNat_char (by simp only [tail6]; omega)
  rw [utf8Bytes_four (by omega), hc, ← byte_eq_ofNat (x := b0) (by omega),
    ← byte_eq_ofNat (x := b1) (by omega), ← byte_eq_ofNat (x := b2) (by omega), ← byte_eq_ofNat (x := b3) (by omega)]

end

/-- What the decoder finds at the head is a character's sequence. -/
theorem utf8Bytes_prefix_of_utf8Head {b : Bytes} {c : Char} {n : Nat} (h : utf8Head b = some (c, n)) :
    utf8Bytes c <+: b := by
  cases b with
  | nil => cases h
  | cons b0 rest =>
    rw [utf8Head] at h
    generalize hlo3 : (if b0 = 0xE0#8 then 0xA0 else 0x80) = lo3 at h
    generalize hhi3 : (if b0 = 0xED#8 then 0x9F else 0xBF) = hi3 at h
    generalize hlo4 : (if b0 = 0xF0#8 then 0x90 else 0x80) = lo4 at h
    generalize hhi4 : (if b0 = 0xF4#8 then 0x8F else 0xBF) = hi4 at h
    simp only [Bool.and_eq_true, byteIn_eq_true, decide_eq_true_eq] at h
    split at h
    · cases h
      exact ⟨rest, by rw [utf8Bytes_of_ascii (by omega)]; rfl⟩
    split at h
    · next hseq =>
      obtain ⟨⟨h0, hn⟩, h1⟩ := hseq
      obtain _ | ⟨b1, r⟩ := rest
      · cases hn
      · cases h
        exact ⟨r, congrArg (· ++ r) (utf8Bytes_of_two h0 h1)⟩
    split at h
    · next hseq =>
      obtain ⟨⟨⟨h0, hn⟩, h1⟩, h2⟩ := hseq
      subst hlo3 hhi3
      obtain _ | ⟨b1, _ | ⟨b2, r⟩⟩ := rest
      · cases hn
      · simp at hn
      · cases h
        exact ⟨r, congrArg (· ++ r) (utf8Bytes_of_three h0 h1 h2)⟩
    split at h
    · next hseq =>
      obtain ⟨⟨⟨⟨h0, hn⟩, h1⟩, h2⟩, h3⟩ := hseq
      subst hlo4 hhi4
      obtain _ | ⟨b1, _ | ⟨b2, _ | ⟨b3, r⟩⟩⟩ := rest
      · cases hn
      · simp at hn
      · simp at hn
      · cases h
        exact ⟨r, congrArg (· ++ r) (utf8Bytes_of_four h0 h1 h2 h3)⟩
    · cases h

/-! A character's sequence is what the decoder takes for it. -/

/-- A byte that carries six bits of a number after the mark of a continuation byte. -/
theorem toNat_continuation (i : Nat) : (BitVec.ofNat 8 (0x80 + i % 64)).toNat = 0x80 + i % 64 :=
  toNat_ofNat_byte (by omega)

/-- A byte in the range of ASCII begins a sequence of its own. -/
theorem utf8Head_of_ascii {b0 : Byte} (h : b0.toNat ≤ 0x7F) (rest : Bytes) :
    utf8Head (b0 :: rest) = some (Char.ofNat b0.toNat, 0) := by
  rw [utf8Head]
  exact if_pos (byteIn_eq_true.mpr ⟨Nat.zero_le _, h⟩)

/-- A continuation byte, C0, C1 and F5 and above begin no sequence. -/
theorem utf8Head_of_no_lead {b0 : Byte} (h : 0x80 ≤ b0.toNat ∧ b0.toNat ≤ 0xC1 ∨ 0xF5 ≤ b0.toNat) (rest : Bytes) :
    utf8Head (b0 :: rest) = none := by
  have hout {lo hi : Nat} (hr : b0.toNat < lo ∨ hi < b0.toNat) : byteIn b0 lo hi = false := by
    rw [Bool.eq_false_iff, Ne, byteIn_eq_true]; omega
  simp only [utf8Head, hout (lo := 0x00) (hi := 0x7F) (by omega), hout (lo := 0xC2) (hi := 0xDF) (by omega),
    hout (lo := 0xE0) (hi := 0xEF) (by omega), hout (lo := 0xF0) (hi := 0xF4) (by omega), Bool.false_and,
    Bool.false_eq_true, if_false]

section
variable {b0 b1 b2 b3 : Byte}

theorem utf8Head_of_two (h0 : 0xC2 ≤ b0.toNat ∧ b0.toNat ≤ 0xDF) (h1 : 0x80 ≤ b1.toNat ∧ b1.toNat ≤ 0xBF)
    (rest : Bytes) :
    utf8Head (b0 :: b1 :: rest) = some (Char.ofNat ((b0.toNat - 0xC0) * 64 + tail6 b1), 1) := by
  rw [utf8Head, if_neg (by rw [byteIn_eq_true]; omega)]
  exact if_pos (by simp [byteIn_eq_true, h0, h1])

theorem utf8Head_of_three (h0 : 0xE0 ≤ b0.toNat ∧ b0.toNat ≤ 0xEF)
    (h1 : (if b0 = 0xE0#8 then 0xA0 else 0x80) ≤ b1.toNat ∧ b1.toNat ≤ if b0 = 0xED#8 then 0x9F else 0xBF)
    (h2 : 0x80 ≤ b2.toNat ∧ b2.toNat ≤ 0xBF) (rest : Bytes) :
    utf8Head (b0 :: b1 :: b2 :: rest) =
      some (Char.ofNat ((b0.toNat - 0xE0) * 4096 + tail6 b1 * 64 + tail6 b2), 2) := by
  rw [utf8Head, if_neg (by rw [byteIn_eq_true]; omega),
    if_neg (by simp only [Bool.and_eq_true, byteIn_eq_true]; omega)]
  exact if_pos (by simp only [Bool.and_eq_true, byteIn_eq_true, decide_eq_true_eq]; exact ⟨⟨⟨h0, by simp⟩, h1⟩, h2⟩)

theorem utf8Head_of_four (h0 : 0xF0 ≤ b0.toNat ∧ b0.toNat ≤ 0xF4)
    (h1 : (if b0 = 0xF0#8 then 0x90 else 0x80) ≤ b1.toNat ∧ b1.toNat ≤ if b0 = 0xF4#8 then 0x8F else 0xBF)
    (h2 : 0x80 ≤ b2.toNat ∧ b2.toNat ≤ 0xBF) (h3 : 0x80 ≤ b3.toNat ∧ b3.toNat ≤ 0xBF) (rest : Bytes) :
    utf8Head (b0 :: b1 :: b2 :: b3 :: rest) =
      some (Char.ofNat ((b0.toNat - 0xF0) * 262144 + tail6 b1 * 4096 + tail6 b2 * 64 + tail6 b3), 3) := by
  rw [utf8Head, if_neg (by rw [byteIn_eq_true]; omega),
    if_neg (by simp only [Bool.and_eq_true, byteIn_eq_true]; omega),
    if_neg (by simp only [Bool.and_eq_true, byteIn_eq_true]; omega)]
  exact if_pos (by
    simp only [Bool.and_eq_true, byteIn_eq_true, decide_eq_true_eq]; exact ⟨⟨⟨⟨h0, by simp⟩, h1⟩, h2⟩, h3⟩)

end

/-- A character is named by its number. -/
theorem ofNat_eq_char {c : Char} {n : Nat} (h : n = c.toNat) : Char.ofNat n = c := by
  rw [h, Char.ofNat_toNat]

/-- The decoder finds a character in front of any bytes at its sequence. -/
theorem utf8Head_utf8Bytes_append (c : Char) (rest : Bytes) :
    utf8Head (utf8Bytes c ++ rest) = some (c, (utf8Bytes c).length - 1) := by
  have hv := isValidChar_toNat c
  by_cases h1 : c.toNat < 0x80
  · have hb0 : (BitVec.ofNat 8 c.toNat).toNat = c.toNat := toNat_ofNat_byte (by omega)
    rw [utf8Bytes_one h1]
    exact (utf8Head_of_ascii (by omega) _).trans (by rw [ofNat_eq_char hb0]; rfl)
  by_cases h2 : c.toNat < 0x800
  · have hb0 : (BitVec.ofNat 8 (0xC0 + c.toNat / 64)).toNat = 0xC0 + c.toNat / 64 := toNat_ofNat_byte (by omega)
    have hb1 := toNat_continuation c.toNat
    rw [utf8Bytes_two (by omega) h2]
    refine (utf8Head_of_two (by omega) (by omega) _).trans ?_
    rw [ofNat_eq_char (c := c) (by simp only [tail6]; omega)]
    rfl
  by_cases h3 : c.toNat < 0x10000
  · have hb0 : (BitVec.ofNat 8 (0xE0 + c.toNat / 4096)).toNat = 0xE0 + c.toNat / 4096 := toNat_ofNat_byte (by omega)
    have hb1 := toNat_continuation (c.toNat / 64)
    have hb2 := toNat_continuation c.toNat
    rw [utf8Bytes_three (by omega) h3]
    refine (utf8Head_of_three (by omega) ((secondByte_range_iff (by decide) (by decide)).mpr (by omega)) (by omega)
      _).trans ?_
    rw [ofNat_eq_char (c := c) (by simp only [tail6]; omega)]
    rfl
  · have hb0 : (BitVec.ofNat 8 (0xF0 + c.toNat / 262144)).toNat = 0xF0 + c.toNat / 262144 :=
      toNat_ofNat_byte (by omega)
    have hb1 := toNat_continuation (c.toNat / 4096)
    have hb2 := toNat_continuation (c.toNat / 64)
    have hb3 := toNat_continuation c.toNat
    rw [utf8Bytes_four (by omega)]
    refine (utf8Head_of_four (by omega) ((secondByte_range_iff (by decide) (by decide)).mpr (by omega)) (by omega)
      (by omega) _).trans ?_
    rw [ofNat_eq_char (c := c) (by simp only [tail6]; omega)]
    rfl

theorem utf8Bytes_ne_nil (c : Char) : utf8Bytes c ≠ [] := by
  simp only [utf8Bytes]
  split
  · simp
  split
  · simp
  split
  · simp
  · simp

/-! The decode, one step at a time. -/

theorem utf8LenientFrom_of_some {x : Byte} {b : Bytes} {c : Char} {n : Nat} (h : utf8Head (x :: b) = some (c, n)) :
    utf8LenientFrom 0 (x :: b) = c :: utf8LenientFrom n b := by
  rw [utf8LenientFrom, h]

theorem utf8LenientFrom_of_none {x : Byte} {b : Bytes} (h : utf8Head (x :: b) = none) :
    utf8LenientFrom 0 (x :: b) = utf8LenientFrom 0 b := by
  rw [utf8LenientFrom, h]

/-- Bytes to pass over are passed over. -/
theorem utf8LenientFrom_length (b rest : Bytes) : utf8LenientFrom b.length (b ++ rest) = utf8LenientFrom 0 rest := by
  induction b with
  | nil => rfl
  | cons x b ih => exact ih

end Sys2Proof.Machine

namespace Sys2Proof

open Sys2Proof.Machine

/-- Settles O32: at a character's sequence the decoder finds that character and passes over the rest; what it finds is
always such a sequence, so a byte at which none begins is dropped; and bytes that are ASCII or begin none are one or the
other at each place. -/
theorem lenientDecodeKeepsAsciiDropsIllFormed : Obligations.LenientDecodeKeepsAsciiDropsIllFormed := by
  refine ⟨rfl, fun c rest => ?_, fun x rest hno => ?_, fun b hb => ?_⟩
  · have hhead := utf8Head_utf8Bytes_append c rest
    cases hseq : utf8Bytes c with
    | nil => exact absurd hseq (utf8Bytes_ne_nil c)
    | cons x tail =>
      rw [hseq] at hhead
      exact (utf8LenientFrom_of_some hhead).trans (congrArg (c :: ·) (utf8LenientFrom_length tail rest))
  · have hnone : utf8Head (x :: rest) = none := by
      cases hh : utf8Head (x :: rest) with
      | none => rfl
      | some cn => exact absurd (utf8Bytes_prefix_of_utf8Head hh) (hno cn.1)
    exact utf8LenientFrom_of_none hnone
  · simp only [textDecode]
    induction b with
    | nil => rfl
    | cons x b ih =>
      have hx := hb x List.mem_cons_self
      have hrest := ih fun y hy => hb y (List.mem_cons_of_mem x hy)
      by_cases hascii : x.toNat < 0x80
      · rw [utf8LenientFrom_of_some (utf8Head_of_ascii (by omega) b), hrest,
          List.filter_cons_of_pos (by simpa using hascii), List.map_cons]
      · rw [utf8LenientFrom_of_none (utf8Head_of_no_lead (by omega) b), hrest,
          List.filter_cons_of_neg (by simpa using hascii)]

end Sys2Proof
end

section
/-! PROOFS. The agents' turns (41_intake.md, 60_exceptions.md R219), guard by guard. -/

namespace Sys2Proof.Machine

/-! ### The Reader -/

/-- A turn of R is R's step. -/
theorem step_reader_cons (s : State) (ts : List Turn) (a : ReadAnswer) (hv : s.viable = true) :
    step { s with turns := .reader a :: ts } = .next (readerStep a { s with turns := ts }) :=
  step_cons s (.reader a) ts hv

section
variable {s : State}

/-- R111. -/
theorem readerStep_of_stop (a : ReadAnswer) (hr : s.reader = .running) (hs : s.stop = true) :
    readerStep a s = { s with reader := .exited, held := none } := by
  simp [readerStep, hr, hs]

/-- With a block in hand R only offers it (R110). -/
theorem readerStep_of_held (a : ReadAnswer) (hr : s.reader = .running) (hs : s.stop = false) {blk : Bytes}
    (hh : s.held = some blk) : readerStep a s = offerBlock blk s := by
  simp [readerStep, hr, hs, hh]

/-- With empty hands R looks at the transport (R110, R112, R113). -/
theorem readerStep_of_idle (a : ReadAnswer) (hr : s.reader = .running) (hs : s.stop = false) (hh : s.held = none) :
    readerStep a s = readTransport a s := by
  simp [readerStep, hr, hs, hh]

/-- R113. -/
theorem readTransport_of_empty (a : ReadAnswer) (hx : s.rx = []) : readTransport a s = s := by
  simp [readTransport, hx]

/-- R112. -/
theorem readTransport_of_error (hx : s.rx ≠ []) :
    readTransport .error s = { s with reader := .exited, logs := s.logs ++ [.rxReadError] } := by
  simp [readTransport, hx, logEvent]

/-- R110. -/
theorem readTransport_of_bytes (more : Nat) (hx : s.rx ≠ []) : readTransport (.bytes more) s =
    offerBlock (s.rx.take (more + 1)) { s with rx := s.rx.drop (more + 1) } := by
  simp [readTransport, hx]

theorem offerBlock_of_room (blk : Bytes) (hq : s.queue.length < Config.qcap) :
    offerBlock blk s = { s with queue := s.queue ++ [blk], held := none } :=
  if_pos hq

theorem offerBlock_of_full (blk : Bytes) (hq : Config.qcap ≤ s.queue.length) :
    offerBlock blk s = { s with held := some blk } :=
  if_neg (Nat.not_lt.mpr hq)

/-- A held block that finds no room stays held, and nothing changes. -/
theorem offerBlock_of_held (blk : Bytes) (hh : s.held = some blk) (hq : Config.qcap ≤ s.queue.length) :
    offerBlock blk s = s := by
  rw [offerBlock_of_full blk hq, ← hh]

/-! ### The Supervisor -/

/-- A turn of S is S's step. -/
theorem step_supervisor_cons (s : State) (ts : List Turn) (hv : s.viable = true) :
    step { s with turns := .supervisor :: ts } = .next (supervisorStep { s with turns := ts }) :=
  step_cons s .supervisor ts hv

theorem supervisorStep_of_exited (hr : s.reader = .exited) : supervisorStep s = { s with stop := true } := by
  simp only [supervisorStep, hr]

theorem supervisorStep_of_running (hr : s.reader = .running) : supervisorStep s = s := by
  simp only [supervisorStep, hr]

/-- A raised signal raised again. -/
theorem supervisorStep_of_stop (hs : s.stop = true) : supervisorStep s = s := by
  cases hr : s.reader with
  | exited => rw [supervisorStep_of_exited hr, ← hs]
  | running => exact supervisorStep_of_running hr

/-! ### The Processor at the top of its loop -/

theorem processorStep_of_poll (hp : s.phase = .poll) : processorStep s = pollStep s := by
  simp only [processorStep, hp]

theorem processorStep_of_stopped (hp : s.phase = .stopped) : processorStep s = .next s := by
  simp only [processorStep, hp]

/-- R117. -/
theorem pollStep_of_stop (hs : s.stop = true) : pollStep s = .next { s with phase := .stopped } :=
  if_pos hs

/-- R118. -/
theorem pollStep_of_empty (hs : s.stop = false) (hq : s.queue = []) : pollStep s = .next s := by
  simp [pollStep, hs, hq]

/-- R114. -/
theorem pollStep_of_block (hs : s.stop = false) {blk : Bytes} {q : List Bytes} (hq : s.queue = blk :: q) :
    pollStep s = popBlock blk q s := by
  simp [pollStep, hs, hq]

theorem popBlock_of_room (blk : Bytes) (q : List Bytes)
    (h : overCap s.cfg.bufCap (s.buf.length + blk.length) = false) :
    popBlock blk q s = .next { diagFeedAll blk { s with queue := q } with
      buf := (diagFeedAll blk { s with queue := q }).buf ++ blk, phase := .drain } := by
  simp [popBlock, h]

theorem popBlock_of_full (blk : Bytes) (q : List Bytes)
    (h : overCap s.cfg.bufCap (s.buf.length + blk.length) = true) :
    popBlock blk q s = .fault .bufCapReached := by
  simp [popBlock, h]

end

/-- A capacity is passed when it is finite and too small. -/
theorem overCap_eq_false {cap : Option Nat} {n : Nat} : overCap cap n = false ↔ ∀ c, cap = some c → n ≤ c := by
  cases cap <;> simp [overCap]

theorem overCap_eq_true {cap : Option Nat} {n : Nat} : overCap cap n = true ↔ ∃ c, cap = some c ∧ c < n := by
  cases cap <;> simp [overCap]

/-- A Reader that is not enabled has exited, holds a block the queue has no room for, or has nothing to read. -/
theorem enabled_reader_eq_false {s : State} (h : enabled s .reader = false) :
    s.reader = .exited ∨ (s.reader = .running ∧ s.stop = false ∧
      ((∃ blk, s.held = some blk ∧ Config.qcap ≤ s.queue.length) ∨ (s.held = none ∧ s.rx = []))) := by
  cases hr : s.reader with
  | exited => exact .inl rfl
  | running =>
    cases hh : s.held <;> simp_all [enabled]

/-- A Supervisor that is not enabled sees a running Reader or has done its work. -/
theorem enabled_supervisor_eq_false {s : State} (h : enabled s .supervisor = false) :
    s.reader = .running ∨ s.stop = true := by
  cases hr : s.reader <;> simp_all [enabled]

end Sys2Proof.Machine

namespace Sys2Proof

open Sys2Proof.Machine

/-- Settles O33: R reads, and the block finds room. -/
theorem readerPushesABlock : Obligations.ReaderPushesABlock := by
  intro s ts more hv hr hs hh hx hq
  refine ⟨s.rx.take (more + 1), s.rx.drop (more + 1), by simpa using hx, (List.take_append_drop _ _).symm,
    List.length_take, ?_⟩
  rw [step_reader_cons s ts _ hv, readerStep_of_idle _ (by exact hr) (by exact hs) (by exact hh),
    readTransport_of_bytes _ (by exact hx), offerBlock_of_room _ (by exact hq), hh]

/-- Settles O34: R reads and finds no room; R holds and finds none; R holds and finds some. -/
theorem readerHoldsWhileQueueIsFull : Obligations.ReaderHoldsWhileQueueIsFull := by
  intro s ts a hv hr hs
  refine ⟨fun more hh hx hq ha => ?_, fun blk hh hq => ?_, fun blk hh hq => ?_⟩
  · subst ha
    rw [step_reader_cons s ts _ hv, readerStep_of_idle _ (by exact hr) (by exact hs) (by exact hh),
      readTransport_of_bytes _ (by exact hx), offerBlock_of_full _ (by exact hq.ge)]
  · rw [step_reader_cons s ts _ hv, readerStep_of_held _ (by exact hr) (by exact hs) (by exact hh),
      offerBlock_of_held _ (by exact hh) (by exact hq.ge)]
  · rw [step_reader_cons s ts _ hv, readerStep_of_held _ (by exact hr) (by exact hs) (by exact hh),
      offerBlock_of_room _ (by exact hq)]

/-- Settles O35. -/
theorem readerExitsOnStop : Obligations.ReaderExitsOnStop := by
  intro s ts a hv hr hs
  rw [step_reader_cons s ts _ hv, readerStep_of_stop _ (by exact hr) (by exact hs)]

/-- Settles O36: the failing read of available bytes, and the turn with none. -/
theorem readErrorEndsTheReader : Obligations.ReadErrorEndsTheReader := by
  intro s ts hv hr hs hh
  refine ⟨fun hx => ?_, fun hx a => ?_⟩
  · rw [step_reader_cons s ts _ hv, readerStep_of_idle _ (by exact hr) (by exact hs) (by exact hh),
      readTransport_of_error (by exact hx)]
  · rw [step_reader_cons s ts _ hv, readerStep_of_idle _ (by exact hr) (by exact hs) (by exact hh),
      readTransport_of_empty _ (by exact hx)]

/-- Settles O37: a pop whose block fits, with the feed of the whole block by `diagFeedAll_eq`, and one that does not. -/
theorem processorPopsABlock : Obligations.ProcessorPopsABlock := by
  intro s ts w c blk q hv hp hs hq
  have hstep : step { s with turns := .processor w c :: ts } =
      popBlock blk q (withAnswers w c { s with turns := ts }) := by
    rw [step_processor_cons s ts w c hv, processorStep_of_poll (by exact hp),
      pollStep_of_block (by exact hs) (by exact hq)]
  rw [hstep]
  constructor
  · intro hroom
    refine ⟨_, popBlock_of_room blk q (overCap_eq_false.mpr hroom), ?_⟩
    have hfeed : blk.foldl diagFeed s = diagFeedAll blk s := rfl
    simp [hfeed, diagFeedAll_eq]
  · intro cap hcap hfull
    exact popBlock_of_full blk q (overCap_eq_true.mpr ⟨cap, hcap, hfull⟩)

/-- Settles O39. -/
theorem stopWinsAtPoll : Obligations.StopWinsAtPoll := by
  intro s ts w c hv hp hs
  rw [step_processor_cons s ts w c hv, processorStep_of_poll (by exact hp), pollStep_of_stop (by exact hs)]
  rfl

/-- Settles O40: S's two cases. -/
theorem supervisorRaisesStop : Obligations.SupervisorRaisesStop := by
  intro s ts hv
  refine ⟨fun hr => ?_, fun hr => ?_⟩
  · rw [step_supervisor_cons s ts hv, supervisorStep_of_exited (by exact hr)]
  · rw [step_supervisor_cons s ts hv, supervisorStep_of_running (by exact hr)]

/-- Settles O41, agent by agent: what it means that the guard does not hold, and the step in each such case. -/
theorem disabledAgentsChangeNothing : Obligations.DisabledAgentsChangeNothing := by
  intro s ts hv
  refine ⟨fun w c hp => ?_, fun a hdis => ?_, fun hdis => ?_⟩
  · rw [step_processor_cons s ts w c hv]
    obtain hp | ⟨hp, hs, hq⟩ := hp
    · exact processorStep_of_stopped hp
    · rw [processorStep_of_poll (by exact hp)]
      exact pollStep_of_empty hs hq
  · rw [step_reader_cons s ts a hv]
    obtain hr | ⟨hr, hs, ⟨blk, hh, hq⟩ | ⟨hh, hx⟩⟩ := enabled_reader_eq_false hdis
    · simp [readerStep, hr]
    · rw [readerStep_of_held _ (by exact hr) (by exact hs) (by exact hh),
        offerBlock_of_held _ (by exact hh) (by exact hq)]
    · rw [readerStep_of_idle _ (by exact hr) (by exact hs) (by exact hh), readTransport_of_empty _ (by exact hx)]
  · rw [step_supervisor_cons s ts hv]
    obtain hr | hs := enabled_supervisor_eq_false hdis
    · rw [supervisorStep_of_running (by exact hr)]
    · rw [supervisorStep_of_stop (by exact hs)]

end Sys2Proof
end

section
/-! PROOFS. What a step of each agent leaves as it was, and the rules of the whole machine that follow. -/

namespace Sys2Proof.Machine

/-- The state in which a frame of a kind is being received (R131). -/
def receiving : Kind → Fsm
  | .header => .receivingHeader
  | .chunk => .receivingChunk

theorem receiving_ne_idle (k : Kind) : receiving k ≠ .idle := by
  cases k <;> exact nofun

/-- An operation uses up 1 to 4 bytes of the window it was selected by. -/
theorem decodeWindow_consumes (w : Word) : 1 ≤ (decodeWindow w).consumes ∧ (decodeWindow w).consumes ≤ 4 := by
  obtain ⟨_, h⟩ | ⟨_, h⟩ | ⟨_, h⟩ | ⟨_, h⟩ | ⟨_, h⟩ := decodeWindow_cases w
  · rw [h]; decide
  · rw [h]; decide
  · rw [h]; decide
  · rw [h]; decide
  · rw [h]; exact ⟨le_rfl, by simp [Instr.consumes]⟩

/-- What an operation of the lookahead that completes can have done: open a frame, process the open one, skip bytes, or
accumulate one. -/
theorem exec_decodeWindow_cases {w : Word} {s t : State} (h : exec (decodeWindow w) s = .next t) :
    (∃ k, t = openFrame (receiving k) (consume 4 s)) ∨
    (∃ k, s.fsm = receiving k ∧ t = processFrame k s.acc (closeFrame (consume 4 s))) ∨
    (∃ n, t = consume n s) ∨
    (∃ x, s.fsm ≠ .idle ∧ s.cfg.accCap ≠ some s.acc.length ∧ t = appendAcc x (consume 1 s)) := by
  obtain ⟨f, _, ⟨_, rfl⟩ | ⟨_, rfl⟩, rfl⟩ | ⟨_, hf, rfl⟩ | ⟨_, hf, rfl⟩ | ⟨_, rfl⟩ | ⟨x, ahead, _, hf, rfl⟩ |
    ⟨x, ahead, _, hf, hcap, rfl⟩ | ⟨c, hi, _⟩ := exec_cases h
  · exact .inl ⟨.header, rfl⟩
  · exact .inl ⟨.chunk, rfl⟩
  · exact .inr (.inl ⟨.header, hf, rfl⟩)
  · exact .inr (.inl ⟨.chunk, hf, rfl⟩)
  · exact .inr (.inr (.inl ⟨4, rfl⟩))
  · exact .inr (.inr (.inl ⟨1, rfl⟩))
  · exact .inr (.inr (.inr ⟨x, hf, hcap, rfl⟩))
  · have hdir := decodeWindow_direction w
    rw [hi] at hdir
    cases hdir

/-- P never touches what belongs to the other agents, to the deployment or to the schedule. -/
theorem processorStep_frame {s t : State} (h : processorStep s = .next t) :
    t.cfg = s.cfg ∧ t.viable = s.viable ∧ t.stop = s.stop ∧ t.reader = s.reader ∧ t.held = s.held ∧ t.rx = s.rx ∧
      t.turns = s.turns ∧ t.tick = s.tick := by
  obtain ⟨_, _, rfl⟩ | ⟨_, _, _, rfl⟩ | ⟨blk, q, _, _, _, _, rfl⟩ | ⟨_, _, rfl⟩ | ⟨_, _, hexec⟩ | ⟨_, rfl⟩ :=
    processorStep_cases h
  · simp
  · simp
  · simp [diagFeedAll_eq]
  · simp
  · obtain ⟨_, _, _, hstop, hreader, hheld, hrx, hcfg, hviable, hturns, htick, _⟩ :=
      assemblerLeavesTheRestAlone _ _ _ hexec
    exact ⟨hcfg, hviable, hstop, hreader, hheld, hrx, hturns, htick⟩
  · simp

/-- Offering a block touches R's hand and the queue. -/
theorem offerBlock_frame (blk : Bytes) (s : State) :
    ∃ held queue, offerBlock blk s = { s with held := held, queue := queue } := by
  obtain ⟨_, h⟩ | ⟨_, h⟩ := offerBlock_cases blk s
  · exact ⟨none, s.queue ++ [blk], h⟩
  · exact ⟨some blk, s.queue, h⟩

/-- R touches its own state, the queue and the transport, and logs at most its read error. -/
theorem readerStep_frame (a : ReadAnswer) (s : State) :
    ∃ reader held rx queue es, (es = [] ∨ es = [.rxReadError]) ∧
      readerStep a s =
        { s with reader := reader, held := held, rx := rx, queue := queue, logs := s.logs ++ es } := by
  obtain ⟨_, h⟩ | ⟨_, _, h⟩ | ⟨blk, _, _, _, h⟩ | ⟨_, _, _, _, _, h⟩ | ⟨_, _, _, _, h⟩ | ⟨more, _, _, _, _, _, h⟩ :=
    readerStep_cases a s
  · exact ⟨s.reader, s.held, s.rx, s.queue, [], .inl rfl, by simp [h]⟩
  · exact ⟨.exited, none, s.rx, s.queue, [], .inl rfl, by simp [h]⟩
  · obtain ⟨held, queue, h'⟩ := offerBlock_frame blk s
    exact ⟨s.reader, held, s.rx, queue, [], .inl rfl, by simp [h, h']⟩
  · exact ⟨.exited, s.held, s.rx, s.queue, [.rxReadError], .inr rfl, by simp [h]⟩
  · exact ⟨s.reader, s.held, s.rx, s.queue, [], .inl rfl, by simp [h]⟩
  · obtain ⟨held, queue, h'⟩ := offerBlock_frame (s.rx.take (more + 1)) { s with rx := s.rx.drop (more + 1) }
    exact ⟨s.reader, held, s.rx.drop (more + 1), queue, [], .inl rfl, by simp [h, h']⟩

/-- S can only raise `stop`. -/
theorem supervisorStep_frame (s : State) : ∃ stop, (s.stop = true → stop = true) ∧
    supervisorStep s = { s with stop := stop } := by
  obtain ⟨_, h⟩ | ⟨_, h⟩ := supervisorStep_cases s
  · exact ⟨true, fun _ => rfl, h⟩
  · exact ⟨s.stop, id, h⟩

/-- With no capacity on `acc` every operation completes (93 I10). -/
theorem exec_exists_next (i : Instr) {s : State} (h : s.cfg.accCap = none) : ∃ t, exec i s = .next t := by
  cases i with
  | opHs => exact ⟨_, exec_opHs s⟩
  | opHe => exact ⟨_, exec_opHe s⟩
  | opCs => exact ⟨_, exec_opCs s⟩
  | opCe => exact ⟨_, exec_opCe s⟩
  | opData x ahead =>
    by_cases hf : s.fsm = .idle
    · exact ⟨_, exec_opData_of_idle hf x ahead⟩
    · exact ⟨_, by rw [exec_opData_of_ne_idle hf, if_neg (by simp [h])]⟩
  | ackFrame code => exact ⟨_, exec_ackFrame code s⟩

/-- With neither capacity set P always has a step. -/
theorem processorStep_exists_next {s : State} (hacc : s.cfg.accCap = none) (hbuf : s.cfg.bufCap = none) :
    ∃ t, processorStep s = .next t := by
  cases hp : s.phase with
  | stopped => exact ⟨_, processorStep_of_stopped hp⟩
  | drain =>
    rw [processorStep_of_drain hp]
    by_cases hb : s.buf.length < 4
    · exact ⟨_, drainStep_of_length_lt_four hb⟩
    · rw [drainStep_of_four_le (Nat.le_of_not_lt hb)]
      exact exec_exists_next _ hacc
  | poll =>
    rw [processorStep_of_poll hp]
    cases hs : s.stop with
    | true => exact ⟨_, pollStep_of_stop hs⟩
    | false =>
      cases hq : s.queue with
      | nil => exact ⟨_, pollStep_of_empty hs hq⟩
      | cons blk q =>
        rw [pollStep_of_block hs hq]
        exact ⟨_, popBlock_of_room blk q (overCap_eq_false.mpr (by simp [hbuf]))⟩

/-- Every history of `s` is the beginning of that of `t` (R33), and the position has not gone back (R29). -/
def OutputsGrow (s t : State) : Prop :=
  s.tx <+: t.tx ∧ s.txfail ≤ t.txfail ∧ s.envs <+: t.envs ∧ s.logs <+: t.logs ∧ s.cq <+: t.cq ∧ s.pos ≤ t.pos

theorem exec_decodeWindow_outputsGrow {w : Word} {s t : State} (h : exec (decodeWindow w) s = .next t) :
    OutputsGrow s t := by
  obtain ⟨k, rfl⟩ | ⟨k, _, rfl⟩ | ⟨n, rfl⟩ | ⟨x, _, _, rfl⟩ := exec_decodeWindow_cases h
  · simp [OutputsGrow]
  · obtain ⟨_, _, _, _, _, hf⟩ := processFrame_frame k s.acc (closeFrame (consume 4 s))
    simp [OutputsGrow, hf]
  · simp [OutputsGrow]
  · simp [OutputsGrow]

theorem processorStep_outputsGrow {s t : State} (h : processorStep s = .next t) : OutputsGrow s t := by
  obtain ⟨_, _, rfl⟩ | ⟨_, _, _, rfl⟩ | ⟨blk, q, _, _, _, _, rfl⟩ | ⟨_, _, rfl⟩ | ⟨_, _, hexec⟩ | ⟨_, rfl⟩ :=
    processorStep_cases h
  · simp [OutputsGrow]
  · simp [OutputsGrow]
  · simp [OutputsGrow, diagFeedAll_eq]
  · simp [OutputsGrow]
  · exact exec_decodeWindow_outputsGrow hexec
  · simp [OutputsGrow]

theorem runTurn_outputsGrow {u : Turn} {s t : State} (h : runTurn u s = .next t) : OutputsGrow s t := by
  cases u with
  | processor w c =>
    have hgrow := processorStep_outputsGrow (s := withAnswers w c s) h
    exact hgrow
  | reader a =>
    obtain ⟨_, _, _, _, _, _, hr⟩ := readerStep_frame a s
    cases h
    simp [OutputsGrow, hr]
  | supervisor =>
    obtain ⟨_, _, hr⟩ := supervisorStep_frame s
    cases h
    simp [OutputsGrow, hr]
  | callerStop => cases h; simp [OutputsGrow]
  | arrive b => cases h; simp [OutputsGrow]

theorem runTurn_cfg {u : Turn} {s t : State} (h : runTurn u s = .next t) : t.cfg = s.cfg := by
  cases u with
  | processor w c =>
    obtain ⟨hcfg, _⟩ := processorStep_frame (s := withAnswers w c s) h
    exact hcfg
  | reader a =>
    obtain ⟨_, _, _, _, _, _, hr⟩ := readerStep_frame a s
    cases h
    rw [hr]
  | supervisor =>
    obtain ⟨_, _, hr⟩ := supervisorStep_frame s
    cases h
    rw [hr]
  | callerStop => cases h; rfl
  | arrive b => cases h; rfl

/-- Nothing takes `stop` back (R27). -/
theorem runTurn_stop {u : Turn} {s t : State} (h : runTurn u s = .next t) (hs : s.stop = true) : t.stop = true := by
  cases u with
  | processor w c =>
    obtain ⟨_, _, hstop, _⟩ := processorStep_frame (s := withAnswers w c s) h
    exact hstop.trans hs
  | reader a =>
    obtain ⟨_, _, _, _, _, _, hr⟩ := readerStep_frame a s
    cases h
    rw [hr]
    exact hs
  | supervisor => cases h; rw [supervisorStep_of_stop hs, hs]
  | callerStop => cases h; rfl
  | arrive b => cases h; exact hs

/-- Nothing revives R (R28). -/
theorem runTurn_exited {u : Turn} {s t : State} (h : runTurn u s = .next t) (hr : s.reader = .exited) :
    t.reader = .exited := by
  cases u with
  | processor w c =>
    obtain ⟨_, _, _, hreader, _⟩ := processorStep_frame (s := withAnswers w c s) h
    exact hreader.trans hr
  | reader a => cases h; simp [readerStep, hr]
  | supervisor => cases h; rw [supervisorStep_of_exited hr]; exact hr
  | callerStop => cases h; exact hr
  | arrive b => cases h; exact hr

/-- A stopped P's registers and ports stay, but for the log of R's read error (R117, R229). -/
theorem runTurn_stopped {u : Turn} {s t : State} (h : runTurn u s = .next t) (hp : s.phase = .stopped) :
    t.phase = .stopped ∧ t.fsm = s.fsm ∧ t.buf = s.buf ∧ t.acc = s.acc ∧ t.line = s.line ∧ t.pos = s.pos ∧
      t.tx = s.tx ∧ t.txfail = s.txfail ∧ t.envs = s.envs ∧ t.cq = s.cq ∧
      (t.logs = s.logs ∨ t.logs = s.logs ++ [.rxReadError]) := by
  cases u with
  | processor w c =>
    cases (processorStep_of_stopped (s := withAnswers w c s) hp).symm.trans h
    simp [hp]
  | reader a =>
    obtain ⟨_, _, _, _, es, hes, hr⟩ := readerStep_frame a s
    cases h
    rw [hr]
    obtain rfl | rfl := hes
    · simp [hp]
    · simp [hp]
  | supervisor =>
    obtain ⟨_, _, hr⟩ := supervisorStep_frame s
    cases h
    simp [hr, hp]
  | callerStop => cases h; simp [hp]
  | arrive b => cases h; simp [hp]

end Sys2Proof.Machine

namespace Sys2Proof

open Sys2Proof.Machine

/-- Settles O46: the turn a step takes first writes no port. -/
theorem outputsOnlyGrow : Obligations.OutputsOnlyGrow := by
  intro s t h
  obtain ⟨_, u, ts, n, hrun⟩ := step_cases h
  have hgrow := runTurn_outputsGrow hrun
  exact hgrow

/-- Settles O47. -/
theorem configurationNeverChanges : Obligations.ConfigurationNeverChanges := by
  intro s t h
  obtain ⟨_, u, ts, n, hrun⟩ := step_cases h
  have hcfg := runTurn_cfg hrun
  exact hcfg

/-- Settles O48. -/
theorem terminalStatesStay : Obligations.TerminalStatesStay := by
  intro s t h
  obtain ⟨_, u, ts, n, hrun⟩ := step_cases h
  have hstop := runTurn_stop hrun
  have hexited := runTurn_exited hrun
  have hstopped := runTurn_stopped hrun
  exact ⟨hstop, hexited, hstopped⟩

/-- Settles O50: P has a step by `processorStep_exists_next`, and the other turns always answer. -/
theorem defaultCapacitiesNeverStick : Obligations.DefaultCapacitiesNeverStick := by
  intro s hv hacc hbuf
  have hcfg : (nextTurn s).2.cfg = s.cfg := by
    unfold nextTurn
    split <;> rfl
  have hstep : step s = runTurn (nextTurn s).1 (nextTurn s).2 := by simp [step, machineStep, hv]
  rw [hstep]
  cases (nextTurn s).1 with
  | processor w c => exact processorStep_exists_next (by simp [hcfg, hacc]) (by simp [hcfg, hbuf])
  | reader a => exact ⟨_, rfl⟩
  | supervisor => exact ⟨_, rfl⟩
  | callerStop => exact ⟨_, rfl⟩
  | arrive b => exact ⟨_, rfl⟩

/-- Settles O51. -/
theorem unsupportedEnvironmentNeverStarts : Obligations.UnsupportedEnvironmentNeverStarts := by
  intro s hv
  simp [step, machineStep, hv]

/-- Settles O59: one equation of `eventCode` for each row of R211. -/
theorem eventCodes : Obligations.EventCodes :=
  ⟨fun _ => rfl, fun _ => rfl, fun _ => rfl, fun _ => rfl, fun _ _ _ _ => rfl, fun _ _ => rfl, rfl, rfl, rfl⟩

/-- Settles O60: the read-back state by state. -/
theorem fsmEncoding : Obligations.FsmEncoding := by
  refine ⟨rfl, rfl, rfl, fun f => ?_, rfl⟩
  cases f <;> rfl

end Sys2Proof
end

section
/-! PROOFS. The invariant of every step (10_state.md), operation by operation and agent by agent. -/

namespace Sys2Proof.Machine

/-! ### What the diagnostic feed keeps -/

/-- A line is within its cap and open: it holds no newline (R24). -/
def LineOk (c : Config) (line : Bytes) : Prop := line.length ≤ c.diagCap ∧ Wire.newline ∉ line

theorem lineFeed_ok {c : Config} {line : Bytes} (b : Byte) (h : LineOk c line) : LineOk c (lineFeed c line b).1 := by
  have hempty : LineOk c [] := ⟨Nat.zero_le _, by simp⟩
  obtain ⟨_, hopen⟩ := h
  simp only [lineFeed]
  split
  · exact hempty
  · next hb =>
    split
    · exact hempty
    · next hl =>
      exact ⟨Nat.le_of_not_lt hl, by simpa [hopen] using Ne.symm hb⟩

theorem lineFeedAll_ok {c : Config} {line : Bytes} (blk : Bytes) (h : LineOk c line) :
    LineOk c (lineFeedAll c line blk).1 := by
  induction blk generalizing line with
  | nil => exact h
  | cons b blk ih => exact ih (lineFeed_ok b h)

/-- Diagnostic events are no failed writes. -/
theorem count_txWriteError_map_diag (texts : List Text) : (texts.map LogEvent.diag).count .txWriteError = 0 := by
  rw [List.count_eq_zero]
  simp

/-! ### What processing a frame keeps -/

/-- The Packet Decoder's envelopes are what R32 says. -/
theorem envelopeOf_ok (c : Config) (k : Kind) (p : Bytes) : EnvelopeOk k (envelopeOf c k p) := by
  refine ⟨rfl, by simp [envelopeOf, hashValid], ?_⟩
  cases k with
  | header => rfl
  | chunk =>
    have hlt := (Wire.le32 p 0).isLt
    exact ⟨Int.natCast_nonneg _, by simp only [envelopeOf, payloadId, Int.ofNat_eq_natCast]; omega⟩

/-- The envelope's own events are no failed writes. -/
theorem count_txWriteError_envelopeEvents (k : Kind) (e : Envelope) :
    (envelopeEvents k e).count .txWriteError = 0 := by
  cases hd : e.docOk <;> cases hh : e.hashValid <;> simp [envelopeEvents, hd, hh]

/-- Each failed write is counted once and logged once (R192). -/
theorem ackGate_counts (e : Envelope) (s : State) : ∃ tx failure,
    ackGate e s = { s with
      tx := s.tx ++ tx, txfail := s.txfail + failure.count .txWriteError, logs := s.logs ++ failure } := by
  obtain ⟨_, hgate⟩ | ⟨_, hgate⟩ := ackGate_cases e s
  · obtain ⟨_, hw⟩ | ⟨k, _, hw⟩ := ackWrite_cases (ackBytes e.receivedCode) s
    · exact ⟨ackBytes e.receivedCode, [], by simp [hgate, hw]⟩
    · exact ⟨(ackBytes e.receivedCode).take k.val, [.txWriteError], by simp [hgate, hw]⟩
  · exact ⟨[], [], by simp [hgate]⟩

/-- So `ProcessFrame` adds as many failures to the count as to the log, and a query for each Chunk it delivers. -/
theorem processEnvelope_counts (k : Kind) (e : Envelope) (s : State) : ∃ tx failure,
    processEnvelope k e s = { s with
      tx := s.tx ++ tx
      txfail := s.txfail + failure.count .txWriteError
      logs := s.logs ++ envelopeEvents k e ++ failure
      envs := s.envs ++ [(k, e)]
      cq := s.cq ++ (if k = .chunk then [s.completeAnswer] else []) } := by
  obtain ⟨tx, failure, hgate⟩ := ackGate_counts e { s with logs := s.logs ++ envelopeEvents k e }
  exact ⟨tx, failure, processEnvelope_of_ackGate hgate⟩

/-! ### The invariant under each update -/

section
variable {s : State}

/-- Only P's loop and its pop bring `buf` above 3 bytes, and only in a drain. -/
theorem Inv.consume (h : Inv s) (n : Nat) : Inv (consume n s) :=
  { h with
    buf_short := fun hp => by have := h.buf_short hp; simp; omega
    buf_cap := fun c hc => by have := h.buf_cap c hc; simp; omega }

theorem Inv.openFrame (h : Inv s) (k : Kind) : Inv (openFrame (receiving k) s) :=
  { h with
    acc_idle := fun hf => absurd hf (receiving_ne_idle k)
    acc_cap := fun _ _ => Nat.zero_le _ }

theorem Inv.closeFrame (h : Inv s) : Inv (closeFrame s) :=
  { h with
    acc_idle := fun _ => rfl
    acc_cap := fun _ _ => Nat.zero_le _ }

theorem Inv.appendAcc (h : Inv s) (x : Byte) (hf : s.fsm ≠ .idle) (hcap : s.cfg.accCap ≠ some s.acc.length) :
    Inv (appendAcc x s) :=
  { h with
    acc_idle := fun hidle => absurd hidle hf
    acc_cap := fun c hc => by
      have hle := h.acc_cap c hc
      have hne : s.acc.length ≠ c := fun heq => hcap (heq ▸ hc)
      simp
      omega }

theorem Inv.logEvent (h : Inv s) {e : LogEvent} (he : e ≠ .txWriteError) : Inv (logEvent e s) :=
  { h with txfail_logged := by simp [h.txfail_logged, he] }

theorem Inv.processEnvelope (h : Inv s) {k : Kind} {e : Envelope} (he : EnvelopeOk k e) :
    Inv (processEnvelope k e s) := by
  obtain ⟨tx, failure, hp⟩ := processEnvelope_counts k e s
  rw [hp]
  exact { h with
    envs_ok := fun ke hke => by
      obtain hke | hke := List.mem_append.mp hke
      · exact h.envs_ok ke hke
      · cases List.mem_singleton.mp hke
        exact he
    txfail_logged := by
      simp only [List.count_append, count_txWriteError_envelopeEvents, h.txfail_logged, Nat.add_zero]
    queries := by cases k <;> simp [h.queries] }

theorem Inv.processFrame (h : Inv s) (k : Kind) (p : Bytes) : Inv (processFrame k p s) := by
  obtain ⟨r, _, hp⟩ | ⟨e, he, hp⟩ := processFrame_cases k p s
  · rw [hp]
    exact h.logEvent nofun
  · obtain ⟨_, rfl⟩ := decodePayload_eq_env.mp he
    rw [hp]
    exact h.processEnvelope (envelopeOf_ok _ k p)

theorem Inv.exec (h : Inv s) {w : Word} {t : State} (he : exec (decodeWindow w) s = .next t) : Inv t := by
  obtain ⟨k, rfl⟩ | ⟨k, _, rfl⟩ | ⟨n, rfl⟩ | ⟨x, hf, hcap, rfl⟩ := exec_decodeWindow_cases he
  · exact (h.consume 4).openFrame k
  · exact (h.consume 4).closeFrame.processFrame k s.acc
  · exact h.consume n
  · exact (h.consume 1).appendAcc x hf hcap

/-! ### The invariant under each agent's step -/

theorem Inv.popBlock (h : Inv s) {blk : Bytes} {q : List Bytes} (hq : s.queue = blk :: q)
    (hroom : overCap s.cfg.bufCap (s.buf.length + blk.length) = false) :
    Inv { diagFeedAll blk { s with queue := q } with
      buf := (diagFeedAll blk { s with queue := q }).buf ++ blk, phase := .drain } := by
  have hcap := h.queue_cap
  have hne := h.blocks_nonempty
  obtain ⟨hlen, hopen⟩ := lineFeedAll_ok blk (line := s.line) ⟨h.line_cap, h.line_open⟩
  rw [hq] at hcap hne
  rw [diagFeedAll_eq]
  exact { h with
    buf_short := fun hp => absurd rfl hp
    line_cap := hlen
    line_open := hopen
    queue_cap := Nat.le_of_succ_le hcap
    blocks_nonempty := fun hmem => hne (List.mem_cons_of_mem blk hmem)
    txfail_logged := by
      simp only [List.count_append, count_txWriteError_map_diag, h.txfail_logged, Nat.add_zero]
    buf_cap := fun c hc => by
      have := overCap_eq_false.mp hroom c hc
      simpa using this }

theorem Inv.processorStep (h : Inv s) {t : State} (hs : processorStep s = .next t) : Inv t := by
  obtain ⟨hp, _, rfl⟩ | ⟨_, _, _, rfl⟩ | ⟨blk, q, _, _, hq, hroom, rfl⟩ | ⟨_, hb, rfl⟩ | ⟨_, _, hexec⟩ | ⟨_, rfl⟩ :=
    processorStep_cases hs
  · exact { h with buf_short := fun _ => h.buf_short (by simp [hp]) }
  · exact h
  · exact h.popBlock hq hroom
  · exact { h with buf_short := fun _ => Nat.le_of_lt_succ hb }
  · exact h.exec hexec
  · exact h

theorem Inv.offerBlock (h : Inv s) {blk : Bytes} (hblk : blk ≠ []) (hr : s.reader = .running) :
    Inv (offerBlock blk s) := by
  obtain ⟨hroom, ho⟩ | ⟨_, ho⟩ := offerBlock_cases blk s
  · rw [ho]
    exact { h with
      queue_cap := by simpa using hroom
      blocks_nonempty := by simpa [h.blocks_nonempty] using hblk.symm
      held_nonempty := nofun
      held_running := fun _ => rfl }
  · rw [ho]
    exact { h with
      held_nonempty := by simpa using hblk
      held_running := fun hx => absurd (hr.symm.trans hx) nofun }

theorem Inv.readerStep (h : Inv s) (a : ReadAnswer) : Inv (readerStep a s) := by
  obtain ⟨_, hs⟩ | ⟨_, _, hs⟩ | ⟨blk, hr, _, hh, hs⟩ | ⟨_, _, hh, _, _, hs⟩ | ⟨_, _, _, _, hs⟩ |
    ⟨more, hr, _, _, _, hx, hs⟩ := readerStep_cases a s
  · rwa [hs]
  · rw [hs]
    exact { h with held_nonempty := nofun, held_running := fun _ => rfl }
  · rw [hs]
    exact h.offerBlock (fun hb => h.held_nonempty (hb ▸ hh)) hr
  · rw [hs]
    exact { h with
      held_running := fun _ => hh
      txfail_logged := by simp [h.txfail_logged] }
  · rwa [hs]
  · rw [hs]
    exact Inv.offerBlock (s := { s with rx := s.rx.drop (more + 1) }) { h with } (by simpa using hx) hr

theorem Inv.runTurn (h : Inv s) {u : Turn} {t : State} (hr : runTurn u s = .next t) : Inv t := by
  cases u with
  | processor w c => exact Inv.processorStep (s := withAnswers w c s) { h with } hr
  | reader a => cases hr; exact h.readerStep a
  | supervisor =>
    obtain ⟨_, _, hs⟩ := supervisorStep_frame s
    cases hr
    rw [hs]
    exact { h with }
  | callerStop => cases hr; exact { h with }
  | arrive b => cases hr; exact { h with }

end

end Sys2Proof.Machine

namespace Sys2Proof

open Sys2Proof.Machine

/-- Settles O45: the turn a step takes first is in none of the invariant's clauses. -/
theorem stepKeepsInvariant : Obligations.StepKeepsInvariant := by
  intro s t h hstep
  obtain ⟨_, u, ts, n, hrun⟩ := step_cases hstep
  exact Inv.runTurn (s := { s with turns := ts, tick := n }) { h with } hrun

/-- Settles O44: at reset every register, queue and history of the invariant is empty, and the constants of the
configuration stand within R7's bounds. -/
theorem resetMeetsInvariant : Obligations.ResetMeetsInvariant := by
  constructor
  · exact {
      buf_short := fun _ => Nat.zero_le _
      acc_idle := fun _ => rfl
      line_cap := Nat.zero_le _
      line_open := List.not_mem_nil
      queue_cap := Nat.zero_le _
      blocks_nonempty := List.not_mem_nil
      held_nonempty := nofun
      held_running := fun _ => rfl
      envs_ok := nofun
      txfail_logged := rfl
      queries := rfl
      acc_cap := fun _ _ => Nat.zero_le _
      buf_cap := fun _ _ => Nat.zero_le _ }
  · by_cases hkey : Config.openErrKey = 8
    · simp [State.reset, Config.deployed, Config.wf, hkey]
    · simp [State.reset, Config.deployed, Config.wf, hkey]

end Sys2Proof
end

section
/-! PROOFS. The stream of bytes and the stream of ACK frames (20_memory.md R62, 45_ack.md R196). -/

namespace Sys2Proof.Machine

/-! ### Bytes are consumed in arrival order -/

/-- From `s` to `t` only the head of the pending stream went, as far as `pos` moved, and `b` came at its tail. -/
def ConsumesInOrder (s t : State) (b : Bytes) : Prop :=
  s.pos ≤ t.pos ∧ pendingStream t = (pendingStream s).drop (t.pos - s.pos) ++ b

/-- A move that consumes nothing and keeps the pending stream. -/
theorem consumesInOrder_of_same {s t : State} (hpos : t.pos = s.pos) (hp : pendingStream t = pendingStream s) :
    ConsumesInOrder s t [] := by
  simp [ConsumesInOrder, hpos, hp]

/-- Consuming at the head of `buf` is consuming at the head of the stream. -/
theorem drop_pendingStream {s : State} {n : Nat} (hn : n ≤ s.buf.length) :
    (pendingStream s).drop n = s.buf.drop n ++ s.queue.flatten ++ s.held.getD [] ++ s.rx := by
  simp only [pendingStream, List.append_assoc, List.drop_append_of_le_length hn]

theorem processorStep_consumesInOrder {s t : State} (h : processorStep s = .next t) : ConsumesInOrder s t [] := by
  obtain ⟨_, _, rfl⟩ | ⟨_, _, _, rfl⟩ | ⟨blk, q, _, _, hq, _, rfl⟩ | ⟨_, _, rfl⟩ | ⟨_, hb, hexec⟩ | ⟨_, rfl⟩ :=
    processorStep_cases h
  · exact consumesInOrder_of_same rfl rfl
  · exact consumesInOrder_of_same rfl rfl
  · exact consumesInOrder_of_same (by simp [diagFeedAll_eq]) (by simp [diagFeedAll_eq, pendingStream, hq])
  · exact consumesInOrder_of_same rfl rfl
  · obtain ⟨hbuf, hpos⟩ := exec_consumes (decodeWindow_direction _) hexec
    obtain ⟨_, _, hqueue, _, _, hheld, hrx, _⟩ := assemblerLeavesTheRestAlone _ _ _ hexec
    obtain ⟨_, hle⟩ := decodeWindow_consumes (peek4 s)
    refine ⟨by omega, ?_⟩
    rw [hpos, Nat.add_sub_cancel_left, drop_pendingStream (by omega), List.append_nil, pendingStream, hbuf, hqueue,
      hheld, hrx]
  · exact consumesInOrder_of_same rfl rfl

/-- Offering a block keeps it between the queue and the transport. -/
theorem pendingStream_offerBlock (blk : Bytes) (s : State) :
    pendingStream (offerBlock blk s) = s.buf ++ s.queue.flatten ++ blk ++ s.rx := by
  obtain ⟨_, h⟩ | ⟨_, h⟩ := offerBlock_cases blk s
  · simp [h, pendingStream]
  · simp [h, pendingStream]

theorem offerBlock_pos (blk : Bytes) (s : State) : (offerBlock blk s).pos = s.pos := by
  obtain ⟨_, _, h⟩ := offerBlock_frame blk s
  rw [h]

theorem readerStep_consumesInOrder (a : ReadAnswer) {s : State} (hdiscard : s.stop = false ∨ s.held = none) :
    ConsumesInOrder s (readerStep a s) [] := by
  obtain ⟨_, h⟩ | ⟨_, hs, h⟩ | ⟨blk, _, _, hh, h⟩ | ⟨_, _, _, _, _, h⟩ | ⟨_, _, _, _, h⟩ | ⟨more, _, _, hh, _, _, h⟩ :=
    readerStep_cases a s
  · exact consumesInOrder_of_same (by rw [h]) (by rw [h])
  · have hh : s.held = none := hdiscard.resolve_left (by simp [hs])
    exact consumesInOrder_of_same (by rw [h]) (by simp [h, pendingStream, hh])
  · rw [h]
    exact consumesInOrder_of_same (offerBlock_pos blk s) (by rw [pendingStream_offerBlock]; simp [pendingStream, hh])
  · exact consumesInOrder_of_same (by rw [h]) (by rw [h]; rfl)
  · exact consumesInOrder_of_same (by rw [h]) (by rw [h])
  · rw [h]
    exact consumesInOrder_of_same (offerBlock_pos _ _) (by rw [pendingStream_offerBlock]; simp [pendingStream, hh])

theorem runTurn_consumesInOrder {u : Turn} {s t : State} (h : runTurn u s = .next t)
    (hdiscard : s.stop = false ∨ s.held = none) : ConsumesInOrder s t (arrivals u) := by
  cases u with
  | processor w c =>
    have hc := processorStep_consumesInOrder (s := withAnswers w c s) h
    exact hc
  | reader a => cases h; exact readerStep_consumesInOrder a hdiscard
  | supervisor =>
    obtain ⟨_, _, hs⟩ := supervisorStep_frame s
    cases h
    exact consumesInOrder_of_same (by rw [hs]) (by rw [hs]; rfl)
  | callerStop => cases h; exact consumesInOrder_of_same rfl rfl
  | arrive b => cases h; simp [ConsumesInOrder, pendingStream, arrivals]

/-! ### `tx` is the ACK frames of the envelopes -/

theorem ackStream_append_singleton (envs : List (Kind × Envelope)) (k : Kind) (e : Envelope) :
    ackStream (envs ++ [(k, e)]) =
      ackStream envs ++ (if e.ackRequested && e.hashValid then ackBytes e.receivedCode else []) := by
  simp [ackStream]

/-- A frame processed without a failed write adds its envelope's ACK to `tx`, if it adds an envelope. -/
theorem processFrame_ackStream {k : Kind} {p : Bytes} {s : State}
    (hfail : (processFrame k p s).txfail = s.txfail) (h : s.tx = ackStream s.envs) :
    (processFrame k p s).tx = ackStream (processFrame k p s).envs := by
  obtain ⟨r, _, hp⟩ | ⟨e, he, _⟩ := processFrame_cases k p s
  · simpa [hp] using h
  · obtain ⟨tx, txfail, failure, hp, hshut, hok, hbad⟩ := envelopeReachesThePorts s k p e he
    have hnone : txfail = 0 := by rw [hp] at hfail; simpa using hfail
    have htx : tx = if e.ackRequested && e.hashValid then ackBytes e.receivedCode else [] := by
      by_cases hsent : e.ackRequested = true ∧ e.hashValid = true
      · have hask : (e.ackRequested && e.hashValid) = true := by simp [hsent]
        cases hw : s.writeAnswer with
        | ok =>
          obtain ⟨htx, _⟩ := hok hsent hw
          rw [htx, if_pos hask]
        | fail n =>
          obtain ⟨_, hone, _⟩ := hbad n hsent hw
          omega
      · obtain ⟨htx, _⟩ := hshut hsent
        rw [htx, if_neg (by simpa using hsent)]
    rw [hp, ackStream_append_singleton, ← htx]
    exact congrArg (· ++ tx) h

theorem processorStep_ackStream {s t : State} (h : processorStep s = .next t) (hfail : t.txfail = s.txfail)
    (htx : s.tx = ackStream s.envs) : t.tx = ackStream t.envs := by
  obtain ⟨_, _, rfl⟩ | ⟨_, _, _, rfl⟩ | ⟨blk, q, _, _, _, _, rfl⟩ | ⟨_, _, rfl⟩ | ⟨_, _, hexec⟩ | ⟨_, rfl⟩ :=
    processorStep_cases h
  · exact htx
  · exact htx
  · simpa [diagFeedAll_eq] using htx
  · exact htx
  · obtain ⟨k, rfl⟩ | ⟨k, _, rfl⟩ | ⟨n, rfl⟩ | ⟨x, _, _, rfl⟩ := exec_decodeWindow_cases hexec
    · exact htx
    · exact processFrame_ackStream hfail htx
    · exact htx
    · exact htx
  · exact htx

theorem runTurn_ackStream {u : Turn} {s t : State} (h : runTurn u s = .next t) (hfail : t.txfail = s.txfail)
    (htx : s.tx = ackStream s.envs) : t.tx = ackStream t.envs := by
  cases u with
  | processor w c => exact processorStep_ackStream (s := withAnswers w c s) h hfail htx
  | reader a =>
    obtain ⟨_, _, _, _, _, _, hr⟩ := readerStep_frame a s
    cases h
    rw [hr]
    exact htx
  | supervisor =>
    obtain ⟨_, _, hr⟩ := supervisorStep_frame s
    cases h
    rw [hr]
    exact htx
  | callerStop => cases h; exact htx
  | arrive b => cases h; exact htx

end Sys2Proof.Machine

namespace Sys2Proof

open Sys2Proof.Machine

/-- Settles O49: the step runs the listed turn, and taking it from the schedule moves no byte. -/
theorem streamIsConsumedInOrder : Obligations.StreamIsConsumedInOrder := by
  intro s t turn ts hturns h hdiscard
  have hv : s.viable = true := (step_cases h).1
  rw [step_of_turn hv hturns] at h
  have hc := runTurn_consumesInOrder h hdiscard
  exact hc

/-- Settles O57: only a finalized frame adds to `tx` or `envs`. -/
theorem txIsTheAcksOfTheEnvelopes : Obligations.TxIsTheAcksOfTheEnvelopes := by
  intro s t h hfail htx
  obtain ⟨_, u, ts, n, hrun⟩ := step_cases h
  exact runTurn_ackStream hrun hfail htx

end Sys2Proof
end

section
/-! PROOFS. Runs of P alone in a drain (41_intake.md R116, 42_framing.md R139-R141, 70_reset_and_hazards.md R244). -/

namespace Sys2Proof.Machine

/-! ### One step of such a run -/

/-- The state P's move at the present position works on: its turn taken, that position's answers in place. -/
def answered (f : Answers) (s : State) : State := withAnswers (f s.pos).1 (f s.pos).2 { s with turns := [] }

theorem step_processorTurn (f : Answers) {s : State} (hv : s.viable = true) :
    step { s with turns := [processorTurn f s] } = processorStep (answered f s) :=
  step_processor_cons s [] _ _ hv

/-- A step of a run of P alone is P's step on that state. -/
theorem processorRun_succ_of_next {f : Answers} {s t : State} (hv : s.viable = true)
    (h : processorStep (answered f s) = .next t) (n : Nat) : processorRun f (n + 1) s = processorRun f n t := by
  simp only [processorRun, step_processorTurn f hv, h]

/-- P is draining `buf`, with nothing that could stop it (93 I10). -/
structure Draining (s : State) : Prop where
  viable : s.viable = true
  uncapped : s.cfg.accCap = none
  drain : s.phase = .drain

/-- With a whole window left, the step of a drain is the operation the window selects. -/
theorem Draining.run_succ {f : Answers} {s t : State} (hd : Draining s) (hb : 4 ≤ s.buf.length)
    (h : exec (decodeWindow (peek4 s)) (answered f s) = .next t) (n : Nat) :
    processorRun f (n + 1) s = processorRun f n t := by
  have hstep : processorStep (answered f s) = drainStep (answered f s) := processorStep_of_drain hd.drain
  have hdrain : drainStep (answered f s) = exec (decodeWindow (peek4 s)) (answered f s) := drainStep_of_four_le hb
  exact processorRun_succ_of_next hd.viable (hstep.trans (hdrain.trans h)) n

/-- An operation does not end the drain it runs in. -/
theorem Draining.of_exec {f : Answers} {s t : State} {i : Instr} (hd : Draining s)
    (h : exec i (answered f s) = .next t) : Draining t := by
  obtain ⟨_, hphase, _, _, _, _, _, hcfg, hviable, _⟩ := assemblerLeavesTheRestAlone _ _ _ h
  exact ⟨hviable.trans hd.viable, (congrArg Config.accCap hcfg).trans hd.uncapped, hphase.trans hd.drain⟩

/-- With a whole window left the drain goes on, without the bytes its operation consumes. -/
theorem Draining.exists_next (f : Answers) {s : State} (hd : Draining s) (hb : 4 ≤ s.buf.length) :
    ∃ t, Draining t ∧ t.buf = s.buf.drop (decodeWindow (peek4 s)).consumes ∧
      t.pos = s.pos + (decodeWindow (peek4 s)).consumes ∧ ∀ n, processorRun f (n + 1) s = processorRun f n t := by
  obtain ⟨t, ht⟩ := exec_exists_next (decodeWindow (peek4 s)) (s := answered f s) hd.uncapped
  obtain ⟨hbuf, hpos⟩ := exec_consumes (decodeWindow_direction _) ht
  exact ⟨t, hd.of_exec ht, hbuf, hpos, hd.run_succ hb ht⟩

/-- A drain ends: each step but the last shortens `buf`. -/
theorem Draining.ends (f : Answers) {s : State} (hd : Draining s) :
    ∃ n t, n ≤ s.buf.length + 1 ∧ processorRun f n s = .next t ∧ t.phase = .poll ∧ t.buf.length ≤ 3 := by
  induction hlen : s.buf.length using Nat.strong_induction_on generalizing s with
  | _ m ih =>
    by_cases hb : s.buf.length < 4
    · have hlast : processorStep (answered f s) = .next { answered f s with phase := .poll } :=
        (processorStep_of_drain (s := answered f s) hd.drain).trans (drainStep_of_length_lt_four hb)
      exact ⟨1, _, by omega, processorRun_succ_of_next hd.viable hlast 0, rfl, Nat.le_of_lt_succ hb⟩
    · obtain ⟨t, hdt, hbuf, _, hrun⟩ := hd.exists_next f (Nat.le_of_not_lt hb)
      obtain ⟨hpos, _⟩ := decodeWindow_consumes (peek4 s)
      have hshort : t.buf.length < m := by rw [hbuf, List.length_drop]; omega
      obtain ⟨n, u, hn, hu, hphase, hub⟩ := ih _ hshort hdt rfl
      exact ⟨n + 1, u, by omega, (hrun n).trans hu, hphase, hub⟩

/-! ### Markers do not overlap -/

/-- A window that begins 1 to 3 bytes before a marker is no marker (R71). -/
theorem le32_not_mem_frameMarkers_of_overlap {front : Bytes} {m : Word} (rest : Bytes) (hm : m ∈ Wire.frameMarkers)
    (hne : front ≠ []) (hlt : front.length < 4) :
    Wire.le32 (front ++ (Wire.u32le m ++ rest)) 0 ∉ Wire.frameMarkers := by
  intro hm'
  have hpos : 0 < front.length := List.length_pos_iff.mpr hne
  have hk : 4 - front.length ∈ [1, 2, 3] := by
    simp only [List.mem_cons, List.not_mem_nil, or_false]
    omega
  apply markersAreDistinctAndOverlapFree.2 _ hm' m hm _ hk
  rw [Wire.u32le_le32 (by simp; omega), List.drop_zero, List.drop_take, Nat.sub_sub_self hlt.le, List.drop_left,
    List.take_append_of_le_length (by rw [Wire.u32le_length]; omega)]

/-- The operation selected before a marker does not reach into it. -/
theorem decodeWindow_consumes_le_front {front : Bytes} {m : Word} (rest : Bytes) (hm : m ∈ Wire.frameMarkers)
    (hne : front ≠ []) :
    (decodeWindow (Wire.le32 (front ++ (Wire.u32le m ++ rest)) 0)).consumes ≤ front.length := by
  by_cases hlt : front.length < 4
  · rw [decodeWindow_of_not_mem_frameMarkers (le32_not_mem_frameMarkers_of_overlap rest hm hne hlt)]
    exact List.length_pos_iff.mpr hne
  · obtain ⟨_, hle⟩ := decodeWindow_consumes (Wire.le32 (front ++ (Wire.u32le m ++ rest)) 0)
    omega

/-- A drain comes to every marker in `buf`. -/
theorem Draining.reaches_marker (f : Answers) {m : Word} (rest : Bytes) (hm : m ∈ Wire.frameMarkers) {s : State}
    (hd : Draining s) {front : Bytes} (hbuf : s.buf = front ++ (Wire.u32le m ++ rest)) :
    ∃ n t, processorRun f n s = .next t ∧ Draining t ∧ t.pos = s.pos + front.length ∧
      t.buf = Wire.u32le m ++ rest := by
  induction hlen : front.length using Nat.strong_induction_on generalizing s front with
  | _ j ih =>
    by_cases hne : front = []
    · subst hne
      exact ⟨0, s, rfl, hd, by rw [← hlen]; rfl, hbuf⟩
    · obtain ⟨t, hdt, htbuf, htpos, hrun⟩ := hd.exists_next f (by rw [hbuf]; simp; omega)
      have hle : (decodeWindow (peek4 s)).consumes ≤ front.length := by
        rw [peek4, hbuf]
        exact decodeWindow_consumes_le_front rest hm hne
      obtain ⟨hpos, _⟩ := decodeWindow_consumes (peek4 s)
      have hfront : t.buf = front.drop (decodeWindow (peek4 s)).consumes ++ (Wire.u32le m ++ rest) := by
        rw [htbuf, hbuf, List.drop_append_of_le_length hle]
      have hshort : (front.drop (decodeWindow (peek4 s)).consumes).length = j - (decodeWindow (peek4 s)).consumes := by
        rw [List.length_drop, hlen]
      obtain ⟨n, u, hu, hdu, hupos, hubuf⟩ := ih _ (by omega) hdt hfront hshort
      exact ⟨n + 1, u, (hrun n).trans hu, hdu, by omega, hubuf⟩

/-! ### A frame with no marker window in its payload -/

theorem endMarker_mem (k : Kind) : endMarker k ∈ Wire.frameMarkers := by
  cases k <;> decide

/-- A start marker opens its kind's frame in every state (R132, R134). -/
theorem exec_startMarker (k : Kind) (s : State) :
    exec (decodeWindow (startMarker k)) s = .next (openFrame (receiving k) (consume 4 s)) := by
  cases k <;> rfl

/-- A frame's end marker hands what was accumulated to `ProcessFrame` (R133, R135). -/
theorem exec_endMarker {k : Kind} {s : State} (hf : s.fsm = receiving k) :
    exec (decodeWindow (endMarker k)) s = .next (processFrame k s.acc (closeFrame (consume 4 s))) := by
  cases k with
  | header => exact (exec_opHe s).trans (congrArg Host.Outcome.next (if_pos hf))
  | chunk => exact (exec_opCe s).trans (congrArg Host.Outcome.next (if_pos hf))

theorem MarkerFree.tail {x : Byte} {p : Bytes} (h : MarkerFree (x :: p)) : MarkerFree p := by
  intro i hi
  have hw := h (i + 1) (by simp; omega)
  rwa [← Wire.le32_drop, List.drop_succ_cons, Wire.le32_drop] at hw

/-- Nor is there a marker window at its head that runs into the end marker. -/
theorem MarkerFree.head {x : Byte} {p : Bytes} (h : MarkerFree (x :: p)) {m : Word} (rest : Bytes)
    (hm : m ∈ Wire.frameMarkers) : Wire.le32 (x :: p ++ (Wire.u32le m ++ rest)) 0 ∉ Wire.frameMarkers := by
  by_cases hlt : (x :: p).length < 4
  · exact le32_not_mem_frameMarkers_of_overlap rest hm (List.cons_ne_nil x p) hlt
  · have hlen : 0 + 4 ≤ (x :: p).length := by omega
    rw [Wire.le32_append_left _ hlen]
    exact h 0 hlen

/-- A data byte of an open frame is accumulated, in one step. -/
theorem Draining.run_data (f : Answers) {s : State} (hd : Draining s) (hf : s.fsm ≠ .idle) {x : Byte} {b : Bytes}
    (hbuf : s.buf = x :: b) (hb : 4 ≤ s.buf.length) (hw : peek4 s ∉ Wire.frameMarkers) (n : Nat) :
    processorRun f (n + 1) s = processorRun f n (appendAcc x (consume 1 (answered f s))) := by
  refine hd.run_succ hb ?_ n
  have hfirst : (peek4 s).extractLsb' 0 8 = x := by
    rw [peek4, Wire.le32_extractLsb'_zero, hbuf, Wire.byteAt_cons_zero]
  rw [decodeWindow_of_not_mem_frameMarkers hw, hfirst]
  have hcap : (answered f s).cfg.accCap = none := hd.uncapped
  exact (exec_opData_of_ne_idle (s := answered f s) hf x _).trans (if_neg (by rw [hcap]; exact nofun))

/-- Inside a frame P accumulates a marker-free payload byte by byte, and its end marker processes it. -/
theorem Draining.run_payload (f : Answers) {k : Kind} {p : Bytes} (rest : Bytes) {s : State} (hd : Draining s)
    (hf : s.fsm = receiving k) (hp : MarkerFree p) (hbuf : s.buf = p ++ (Wire.u32le (endMarker k) ++ rest)) :
    processorRun f (p.length + 1) s =
      .next (processFrame k (s.acc ++ p) { s with
        fsm := .idle
        acc := []
        buf := rest
        pos := s.pos + p.length + 4
        turns := []
        writeAnswer := (f (s.pos + p.length)).1
        completeAnswer := (f (s.pos + p.length)).2 }) := by
  induction p generalizing s with
  | nil =>
    have hpeek : peek4 s = endMarker k := by rw [peek4, hbuf]; exact Wire.le32_u32le_append _ rest
    have hend := exec_endMarker (s := answered f s) hf
    rw [← hpeek] at hend
    refine (hd.run_succ (by simp [hbuf]) hend 0).trans ?_
    have hrest : s.buf.drop 4 = rest := by rw [hbuf]; rfl
    simp [processorRun, closeFrame, consume, answered, withAnswers, hrest]
  | cons x p ih =>
    have hopen : s.fsm ≠ .idle := by rw [hf]; exact receiving_ne_idle k
    have hw : peek4 s ∉ Wire.frameMarkers := by rw [peek4, hbuf]; exact hp.head rest (endMarker_mem k)
    have hb : 4 ≤ s.buf.length := by rw [hbuf]; simp; omega
    have hrest : s.buf.drop 1 = p ++ (Wire.u32le (endMarker k) ++ rest) := by rw [hbuf]; rfl
    have hnext : Draining (appendAcc x (consume 1 (answered f s))) := ⟨hd.viable, hd.uncapped, hd.drain⟩
    rw [List.length_cons, hd.run_data f hopen hbuf hb hw, ih hnext hf hp.tail hrest]
    have hpos : s.pos + 1 + p.length = s.pos + (p.length + 1) := by omega
    simp [appendAcc, consume, answered, withAnswers, hpos]

/-- What an envelope that is acknowledged adds to the ports, with the write taken whole (R190, R193, R194). -/
theorem processFrame_acknowledged {k : Kind} {p : Bytes} {s : State} {e : Envelope}
    (he : decodePayload s.cfg k p = .env e) (hsent : e.ackRequested = true ∧ e.hashValid = true)
    (hok : s.writeAnswer = .ok) :
    (processFrame k p s).envs = s.envs ++ [(k, e)] ∧ (processFrame k p s).tx = s.tx ++ ackBytes e.receivedCode ∧
      (processFrame k p s).txfail = s.txfail ∧
      (processFrame k p s).cq = s.cq ++ (if k = .chunk then [s.completeAnswer] else []) := by
  obtain ⟨tx, txfail, failure, hports, _, hwhole, _⟩ := envelopeReachesThePorts s k p e he
  obtain ⟨rfl, rfl, _⟩ := hwhole hsent hok
  rw [hports]
  exact ⟨rfl, rfl, rfl, rfl⟩

end Sys2Proof.Machine

namespace Sys2Proof

open Sys2Proof.Machine

/-- Settles O52. -/
theorem everyDrainEnds : Obligations.EveryDrainEnds :=
  fun _ f hv hcap hp => Draining.ends f ⟨hv, hcap, hp⟩

/-- Settles O53: what precedes the marker is consumed without reaching into it, and the marker is then the window. -/
theorem everyMarkerIsReached : Obligations.EveryMarkerIsReached := by
  intro s f front rest m hv hcap hp hm hbuf
  obtain ⟨n, t, hrun, hdt, hpos, htbuf⟩ :=
    Draining.reaches_marker f rest hm ⟨hv, hcap, hp⟩ (hbuf.trans (List.append_assoc _ _ _))
  refine ⟨n, t, hrun, hdt.drain, hpos, htbuf, ?_⟩
  rw [peek4, htbuf]
  exact Wire.le32_u32le_append m rest

/-- Settles O54: the start marker opens the frame whatever came before, and `Draining.run_payload` is the rest. -/
theorem markerFreeFrameIsProcessedIntact : Obligations.MarkerFreeFrameIsProcessedIntact := by
  intro s f k p rest hv hcap hp hfree hbuf
  have hd : Draining s := ⟨hv, hcap, hp⟩
  have hbuf' : s.buf = Wire.u32le (startMarker k) ++ (p ++ (Wire.u32le (endMarker k) ++ rest)) := by
    rw [hbuf]; simp only [wireFrame, List.append_assoc]
  have hpeek : peek4 s = startMarker k := by rw [peek4, hbuf']; exact Wire.le32_u32le_append _ _
  have hstart := exec_startMarker k (answered f s)
  rw [← hpeek] at hstart
  have hnext : Draining (openFrame (receiving k) (consume 4 (answered f s))) := hd.of_exec hstart
  have hrest : s.buf.drop 4 = p ++ (Wire.u32le (endMarker k) ++ rest) := by rw [hbuf']; rfl
  rw [hd.run_succ (by simp [hbuf']) hstart (p.length + 1), hnext.run_payload f rest rfl hfree hrest]
  have hpos : s.pos + 4 + p.length = s.pos + p.length + 4 := by omega
  simp [openFrame, consume, answered, withAnswers, hpos]

/-- Settles O55: the frame is processed intact, its payload decodes to its own id and verifies, and what such an
envelope adds to the ports is known. -/
theorem wellFormedFrameIsDeliveredAndAcknowledged : Obligations.WellFormedFrameIsDeliveredAndAcknowledged := by
  intro s f k id data rest hv hcap hp hlen hfree hbuf hask p hok
  obtain ⟨e, he, hid, hcode, _, hvalid, hdoc, _, hreq⟩ := wellFormedPayloadDecodes s.cfg k id data hlen
  have hsent : e.ackRequested = true ∧ e.hashValid = true := ⟨by rw [hreq, hdoc]; exact hask, hvalid⟩
  have hraw : e.rawPayload = p := by
    obtain ⟨_, rfl⟩ := decodePayload_eq_env.mp he
    rfl
  have hports := processFrame_acknowledged (k := k) (p := p) (s := { s with
    fsm := .idle
    acc := []
    buf := rest
    pos := s.pos + p.length + 8
    turns := []
    writeAnswer := (f (s.pos + p.length + 4)).1
    completeAnswer := (f (s.pos + p.length + 4)).2 }) he hsent hok
  obtain ⟨henvs, htx, htxfail, hcq⟩ := hports
  exact ⟨_, e, markerFreeFrameIsProcessedIntact s f k p rest hv hcap hp hfree hbuf, henvs, hraw, hvalid, hid,
    hcode ▸ htx, htxfail, hcq, processFrame_fsm _ _ _, processFrame_acc _ _ _, processFrame_buf _ _ _⟩

end Sys2Proof
end

section
/-! PROOFS. What an operation adds depends on the frame registers, the configuration and the answers alone
(70_reset_and_hazards.md R243). -/

namespace Sys2Proof.Machine

/-! ### An operation as an effect -/

/-- What is added to each output history. -/
structure Emission where
  tx : Bytes := []
  txfail : Nat := 0
  envs : List (Kind × Envelope) := []
  logs : List LogEvent := []
  cq : List Bool := []

/-- The output histories with an emission added. -/
def emit (o : Emission) (s : State) : State :=
  { s with
    tx := s.tx ++ o.tx
    txfail := s.txfail + o.txfail
    envs := s.envs ++ o.envs
    logs := s.logs ++ o.logs
    cq := s.cq ++ o.cq }

/-- `n` bytes consumed, the frame registers set, and an emission. -/
def applyEffect (n : Nat) (fsm : Fsm) (acc : Bytes) (o : Emission) (s : State) : State :=
  emit o { s with buf := s.buf.drop n, pos := s.pos + n, fsm := fsm, acc := acc }

/-- No operation of the assembler logs a diagnostic event (R164). -/
def Emission.NoDiag (o : Emission) : Prop := ∀ ev ∈ o.logs, eventCode ev ≠ 0

theorem Emission.noDiag_empty : ({} : Emission).NoDiag := nofun

/-- An emission of nothing. -/
theorem applyEffect_empty (n : Nat) (fsm : Fsm) (acc : Bytes) (s : State) :
    applyEffect n fsm acc {} s = { s with buf := s.buf.drop n, pos := s.pos + n, fsm := fsm, acc := acc } := by
  simp [applyEffect, emit]

theorem envelopeEvents_noDiag (k : Kind) (e : Envelope) : ∀ ev ∈ envelopeEvents k e, eventCode ev ≠ 0 := by
  cases hd : e.docOk <;> cases hh : e.hashValid <;> simp [envelopeEvents, hd, hh, eventCode]

/-- What the ACK gate adds, from the envelope and the transport's answer. -/
theorem exists_ackGate_emission (e : Envelope) (w : WriteAnswer) : ∃ tx n failure,
    (∀ ev ∈ failure, eventCode ev ≠ 0) ∧ ∀ s : State, s.writeAnswer = w → ackGate e s =
      { s with tx := s.tx ++ tx, txfail := s.txfail + n, logs := s.logs ++ failure } := by
  by_cases hsent : e.ackRequested = true ∧ e.hashValid = true
  · cases w with
    | ok =>
      refine ⟨ackBytes e.receivedCode, 0, [], by simp, fun s hw => ?_⟩
      rw [ackGate_of_sent hsent, ackWrite_of_ok hw]
      simp
    | fail n =>
      refine ⟨(ackBytes e.receivedCode).take n.val, 1, [.txWriteError], by simp [eventCode], fun s hw => ?_⟩
      rw [ackGate_of_sent hsent, ackWrite_of_fail hw]
  · refine ⟨[], 0, [], by simp, fun s _ => ?_⟩
    rw [ackGate_of_not_sent hsent]
    simp

/-- What `ProcessFrame` emits, from the configuration, the answers, the kind and the payload. -/
theorem exists_processFrame_emission (c : Config) (w : WriteAnswer) (q : Bool) (k : Kind) (p : Bytes) :
    ∃ o : Emission, o.NoDiag ∧ ∀ s : State, s.cfg = c → s.writeAnswer = w → s.completeAnswer = q →
      processFrame k p s = emit o s := by
  cases hdec : decodePayload c k p with
  | malformed r =>
    refine ⟨{ logs := [.malformed k r] }, by cases r <;> simp [Emission.NoDiag, eventCode], ?_⟩
    rintro s rfl - -
    rw [processFrame_of_malformed hdec]
    simp [logEvent, emit]
  | env e =>
    obtain ⟨tx, n, failure, hfailure, hgate⟩ := exists_ackGate_emission e w
    refine ⟨⟨tx, n, [(k, e)], envelopeEvents k e ++ failure, if k = .chunk then [q] else []⟩, fun ev hev => ?_, ?_⟩
    · exact (List.mem_append.mp hev).elim (envelopeEvents_noDiag k e ev) (hfailure ev)
    · rintro s rfl hw rfl
      rw [processFrame_of_env hdec, processEnvelope_of_ackGate (hgate _ hw), emit, List.append_assoc]

/-- Two states an operation of the lookahead cannot tell apart. -/
structure SameInputs (s s' : State) : Prop where
  cfg : s'.cfg = s.cfg
  fsm : s'.fsm = s.fsm
  acc : s'.acc = s.acc
  writeAnswer : s'.writeAnswer = s.writeAnswer
  completeAnswer : s'.completeAnswer = s.completeAnswer

/-- A start marker's effect. -/
theorem openFrame_consume_eq (f : Fsm) (s : State) : openFrame f (consume 4 s) = applyEffect 4 f [] {} s :=
  (applyEffect_empty 4 f [] s).symm

/-- The effect of skipping bytes: the frame registers are set to what they were. -/
theorem SameInputs.consume_eq {s s' : State} (h : SameInputs s s') (n : Nat) :
    consume n s' = applyEffect n s.fsm s.acc {} s' := by
  rw [applyEffect_empty, ← h.fsm, ← h.acc]
  rfl

/-- The effect of accumulating a byte. -/
theorem SameInputs.appendAcc_eq {s s' : State} (h : SameInputs s s') (x : Byte) :
    appendAcc x (consume 1 s') = applyEffect 1 s.fsm (s.acc ++ [x]) {} s' := by
  rw [applyEffect_empty, ← h.fsm, ← h.acc]
  rfl

/-- Finalizing a frame has one effect on every state that cannot be told from this one. -/
theorem exists_finalize_effect (k : Kind) (s : State) : ∃ o : Emission, o.NoDiag ∧ ∀ s', SameInputs s s' →
    processFrame k s'.acc (closeFrame (consume 4 s')) = applyEffect 4 .idle [] o s' := by
  obtain ⟨o, ho, hp⟩ := exists_processFrame_emission s.cfg s.writeAnswer s.completeAnswer k s.acc
  refine ⟨o, ho, fun s' hs => ?_⟩
  rw [hs.acc]
  exact hp _ hs.cfg hs.writeAnswer hs.completeAnswer

/-- An operation that completes has one effect on every state it cannot tell from this one. -/
theorem exec_decodeWindow_effect {w : Word} {s t : State} (h : exec (decodeWindow w) s = .next t) :
    ∃ fsm acc, ∃ o : Emission, o.NoDiag ∧ ∀ s', SameInputs s s' →
      exec (decodeWindow w) s' = .next (applyEffect (decodeWindow w).consumes fsm acc o s') := by
  obtain ⟨_, hw⟩ | ⟨_, hw⟩ | ⟨_, hw⟩ | ⟨_, hw⟩ | ⟨_, hw⟩ := decodeWindow_cases w
  · rw [hw]
    exact ⟨_, _, _, Emission.noDiag_empty, fun s' _ => by rw [exec_opHs, openFrame_consume_eq]; rfl⟩
  · rw [hw]
    by_cases hf : s.fsm = .receivingHeader
    · obtain ⟨o, ho, hp⟩ := exists_finalize_effect .header s
      exact ⟨_, _, o, ho, fun s' hs => by rw [exec_opHe, if_pos (hs.fsm.trans hf), hp s' hs]; rfl⟩
    · exact ⟨_, _, _, Emission.noDiag_empty, fun s' hs => by rw [exec_opHe, if_neg (hs.fsm ▸ hf), hs.consume_eq]; rfl⟩
  · rw [hw]
    exact ⟨_, _, _, Emission.noDiag_empty, fun s' _ => by rw [exec_opCs, openFrame_consume_eq]; rfl⟩
  · rw [hw]
    by_cases hf : s.fsm = .receivingChunk
    · obtain ⟨o, ho, hp⟩ := exists_finalize_effect .chunk s
      exact ⟨_, _, o, ho, fun s' hs => by rw [exec_opCe, if_pos (hs.fsm.trans hf), hp s' hs]; rfl⟩
    · exact ⟨_, _, _, Emission.noDiag_empty, fun s' hs => by rw [exec_opCe, if_neg (hs.fsm ▸ hf), hs.consume_eq]; rfl⟩
  · rw [hw] at h ⊢
    by_cases hf : s.fsm = .idle
    · exact ⟨_, _, _, Emission.noDiag_empty,
        fun s' hs => by rw [exec_opData_of_idle (hs.fsm.trans hf), hs.consume_eq]; rfl⟩
    · have hcap : s.cfg.accCap ≠ some s.acc.length := by
        intro hfull
        rw [exec_opData_of_ne_idle hf, if_pos hfull] at h
        cases h
      refine ⟨s.fsm, s.acc ++ [w.extractLsb' 0 8], {}, Emission.noDiag_empty, fun s' hs => ?_⟩
      rw [exec_opData_of_ne_idle (hs.fsm ▸ hf), if_neg (by rw [hs.cfg, hs.acc]; exact hcap), hs.appendAcc_eq]
      rfl

/-! ### Two engines with the same registers -/

/-- Two states that P's steps cannot tell apart but for the diagnostic line, the position and the histories. -/
structure Alike (s s' : State) : Prop where
  cfg : s'.cfg = s.cfg
  viable : s'.viable = s.viable
  fsm : s'.fsm = s.fsm
  acc : s'.acc = s.acc
  buf : s'.buf = s.buf
  phase : s'.phase = s.phase
  queue : s'.queue = s.queue
  stop : s'.stop = s.stop
  turns : s'.turns = s.turns

/-- From `s` to `t` and from `s'` to `t'` the same envelopes, ACK bytes and queries were added. -/
def AddSame (s t s' t' : State) : Prop :=
  ∃ envs tx cq, t.envs = s.envs ++ envs ∧ t'.envs = s'.envs ++ envs ∧ t.tx = s.tx ++ tx ∧ t'.tx = s'.tx ++ tx ∧
    t.cq = s.cq ++ cq ∧ t'.cq = s'.cq ++ cq

theorem AddSame.nothing {s t s' t' : State} (he : t.envs = s.envs) (he' : t'.envs = s'.envs) (hx : t.tx = s.tx)
    (hx' : t'.tx = s'.tx) (hc : t.cq = s.cq) (hc' : t'.cq = s'.cq) : AddSame s t s' t' :=
  ⟨[], [], [], by simp [*]⟩

theorem AddSame.trans {s t u s' t' u' : State} (h : AddSame s t s' t') (h' : AddSame t u t' u') :
    AddSame s u s' u' := by
  obtain ⟨envs, tx, cq, he, he', hx, hx', hc, hc'⟩ := h
  obtain ⟨envs2, tx2, cq2, he2, he2', hx2, hx2', hc2, hc2'⟩ := h'
  exact ⟨envs ++ envs2, tx ++ tx2, cq ++ cq2, by simp [*]⟩

/-- P's steps keep two engines alike, and both add the same. -/
theorem Alike.next {s s' t : State} (h : Alike s s') (hw : s'.writeAnswer = s.writeAnswer)
    (hc : s'.completeAnswer = s.completeAnswer) (hs : processorStep s = .next t) :
    ∃ t', processorStep s' = .next t' ∧ Alike t t' ∧ AddSame s t s' t' := by
  obtain ⟨hp, hstop, rfl⟩ | ⟨hp, hstop, hq, rfl⟩ | ⟨blk, q, hp, hstop, hq, hroom, rfl⟩ | ⟨hp, hb, rfl⟩ |
    ⟨hp, hb, hexec⟩ | ⟨hp, rfl⟩ := processorStep_cases hs
  · refine ⟨{ s' with phase := .stopped }, ?_, { h with phase := rfl }, .nothing rfl rfl rfl rfl rfl rfl⟩
    rw [processorStep_of_poll (h.phase.trans hp), pollStep_of_stop (h.stop.trans hstop)]
  · refine ⟨s', ?_, h, .nothing rfl rfl rfl rfl rfl rfl⟩
    rw [processorStep_of_poll (h.phase.trans hp), pollStep_of_empty (h.stop.trans hstop) (h.queue.trans hq)]
  · have hpop : processorStep s' = popBlock blk q s' := by
      rw [processorStep_of_poll (h.phase.trans hp), pollStep_of_block (h.stop.trans hstop) (h.queue.trans hq)]
    refine ⟨_, hpop.trans (popBlock_of_room blk q (by rw [h.cfg, h.buf]; exact hroom)), ?_, ?_⟩
    · simp only [diagFeedAll_eq]
      exact { h with queue := rfl, buf := congrArg (· ++ blk) h.buf, phase := rfl }
    · simp only [diagFeedAll_eq]
      exact .nothing rfl rfl rfl rfl rfl rfl
  · refine ⟨{ s' with phase := .poll }, ?_, { h with phase := rfl }, .nothing rfl rfl rfl rfl rfl rfl⟩
    rw [processorStep_of_drain (h.phase.trans hp), drainStep_of_length_lt_four (h.buf ▸ hb)]
  · obtain ⟨fsm, acc, o, _, heff⟩ := exec_decodeWindow_effect hexec
    cases (heff s ⟨rfl, rfl, rfl, rfl, rfl⟩).symm.trans hexec
    have hpeek : peek4 s' = peek4 s := congrArg (Wire.le32 · 0) h.buf
    refine ⟨applyEffect (decodeWindow (peek4 s)).consumes fsm acc o s', ?_, ?_, o.envs, o.tx, o.cq,
      rfl, rfl, rfl, rfl, rfl, rfl⟩
    · rw [processorStep_of_drain (h.phase.trans hp), drainStep_of_four_le (h.buf ▸ hb), hpeek]
      exact heff s' ⟨h.cfg, h.fsm, h.acc, hw, hc⟩
    · exact { h with fsm := rfl, acc := rfl, buf := congrArg (List.drop _) h.buf }
  · exact ⟨s', processorStep_of_stopped (h.phase.trans hp), h, .nothing rfl rfl rfl rfl rfl rfl⟩

/-- One step of a run of the machine. -/
theorem core_run_succ {s t : State} (h : step s = .next t) (n : Nat) :
    Sys2Proof.core.run (n + 1) s = Sys2Proof.core.run n t := by
  simp only [Host.Core.run]
  rw [show Sys2Proof.core.step s = .next t from h]

/-- A run of one step more that answers took that step. -/
theorem step_of_core_run_succ {s u : State} {n : Nat} (h : Sys2Proof.core.run (n + 1) s = .next u) :
    ∃ t, step s = .next t ∧ Sys2Proof.core.run n t = .next u := by
  cases hs : step s with
  | next t => exact ⟨t, rfl, (core_run_succ hs n).symm.trans h⟩
  | fault r =>
    simp only [Host.Core.run] at h
    rw [show Sys2Proof.core.step s = .fault r from hs] at h
    cases h
  | refused r =>
    simp only [Host.Core.run] at h
    rw [show Sys2Proof.core.step s = .refused r from hs] at h
    cases h

/-- So do whole schedules of P's turns. -/
theorem Alike.run {turns : List Turn} (hturns : ∀ u ∈ turns, ∃ w c, u = .processor w c) {s s' t : State}
    (h : Alike s s') (hv : s.viable = true) (hs : s.turns = turns)
    (hrun : Sys2Proof.core.run turns.length s = .next t) :
    ∃ t', Sys2Proof.core.run turns.length s' = .next t' ∧ Alike t t' ∧ AddSame s t s' t' := by
  induction turns generalizing s s' with
  | nil =>
    cases hrun
    exact ⟨s', rfl, h, .nothing rfl rfl rfl rfl rfl rfl⟩
  | cons u ts ih =>
    obtain ⟨w, c, rfl⟩ := hturns u List.mem_cons_self
    obtain ⟨s1, hstep, hrun1⟩ := step_of_core_run_succ hrun
    rw [step_of_turn hv hs] at hstep
    have htaken : Alike (withAnswers w c { s with turns := ts }) (withAnswers w c { s' with turns := ts }) :=
      { h with turns := rfl }
    obtain ⟨s1', hstep', halike, hadd⟩ := htaken.next rfl rfl hstep
    obtain ⟨_, hviable, _, _, _, _, hturns1, _⟩ := processorStep_frame hstep
    obtain ⟨t', hrun', halike', hadd'⟩ := ih (fun v hv => hturns v (List.mem_cons_of_mem _ hv)) halike
      (hviable.trans hv) hturns1 hrun1
    refine ⟨t', ?_, halike', AddSame.trans hadd hadd'⟩
    have hstep'' : step s' = .next s1' :=
      (step_of_turn (h.viable.trans hv) (h.turns.trans hs)).trans hstep'
    exact (core_run_succ hstep'' _).trans hrun'

/-- A step of P in a drain with a start marker next opens its frame, in every state. -/
theorem step_startMarker {s : State} {k : Kind} {rest : Bytes} {w : WriteAnswer} {c : Bool} {ts : List Turn}
    (hv : s.viable = true) (hp : s.phase = .drain) (hbuf : s.buf = Wire.u32le (startMarker k) ++ rest) :
    step { s with turns := .processor w c :: ts } =
      .next (openFrame (receiving k) (consume 4 (withAnswers w c { s with turns := ts }))) := by
  have hpeek : peek4 s = startMarker k := by rw [peek4, hbuf]; exact Wire.le32_u32le_append _ rest
  have hstart := exec_startMarker k (withAnswers w c { s with turns := ts })
  rw [← hpeek] at hstart
  rw [step_processor_cons s ts w c hv, processorStep_of_drain (by exact hp)]
  exact (drainStep_of_four_le (by simp [hbuf])).trans hstart

end Sys2Proof.Machine

namespace Sys2Proof

open Sys2Proof.Machine

/-- Settles O56: the marker sets the frame registers alike, and from there the two engines stay alike. -/
theorem startMarkerForgetsThePast : Obligations.StartMarkerForgetsThePast := by
  intro s s' t turns m rest hm hv hv' hcfg hp hp' hbuf hbuf' hqueue hstop hne hturns hrun
  obtain ⟨k, rfl⟩ : ∃ k, m = startMarker k := hm.elim (fun h => ⟨.header, h⟩) (fun h => ⟨.chunk, h⟩)
  obtain _ | ⟨u, ts⟩ := turns
  · exact absurd rfl hne
  obtain ⟨w, c, rfl⟩ := hturns _ List.mem_cons_self
  have hstep := step_startMarker (w := w) (c := c) (ts := ts) hv hp hbuf
  have hstep' := step_startMarker (w := w) (c := c) (ts := ts) hv' hp' (hbuf'.trans hbuf)
  have halike : Alike (openFrame (receiving k) (consume 4 (withAnswers w c { s with turns := ts })))
      (openFrame (receiving k) (consume 4 (withAnswers w c { s' with turns := ts }))) :=
    ⟨hcfg, hv'.trans hv.symm, rfl, rfl, congrArg (List.drop 4) hbuf', hp'.trans hp.symm, hqueue, hstop, rfl⟩
  obtain ⟨t', hrun', ht, envs, tx, cq, hadd⟩ := halike.run (fun v hmem => hturns v (List.mem_cons_of_mem _ hmem)) hv rfl
    ((core_run_succ hstep _).symm.trans hrun)
  exact ⟨t', envs, tx, cq, (core_run_succ hstep' _).trans hrun', ht.fsm, ht.acc, ht.buf, ht.phase, hadd⟩

end Sys2Proof
end

section
/-! PROOFS. Block boundaries carry no meaning (41_intake.md R119): a run over a queue of blocks is followed by a scan of
all its bytes at once. -/

namespace Sys2Proof.Machine

/-! ### Runs of P alone -/

/-- A run of one step more that answers took that step of P. -/
theorem processorStep_of_run_succ {f : Answers} {s u : State} {n : Nat} (hv : s.viable = true)
    (h : processorRun f (n + 1) s = .next u) :
    ∃ t, processorStep (answered f s) = .next t ∧ processorRun f n t = .next u := by
  simp only [processorRun, step_processorTurn f hv] at h
  cases hs : processorStep (answered f s) with
  | next t => exact ⟨t, rfl, by simpa [hs] using h⟩
  | fault r => simp [hs] at h
  | refused r => simp [hs] at h

/-- What every step of P keeps, a run of P alone keeps. -/
theorem processorRun_keeps {f : Answers} {P : State → Prop}
    (hstep : ∀ s t, P s → processorStep (answered f s) = .next t → P t) {n : Nat} {s t : State}
    (hv : s.viable = true) (hs : P s) (h : processorRun f n s = .next t) : P t := by
  induction n generalizing s with
  | zero => cases h; exact hs
  | succ n ih =>
    obtain ⟨u, hu, hrun⟩ := processorStep_of_run_succ hv h
    obtain ⟨_, hviable, _⟩ := processorStep_frame hu
    exact ih (hviable.trans hv) (hstep s u hs hu) hrun

/-- A run of an engine without a transport that answers took no step. -/
theorem processorRun_not_viable {f : Answers} {n : Nat} {s t : State} (hv : s.viable = false)
    (h : processorRun f n s = .next t) : t = s := by
  cases n with
  | zero => cases h; rfl
  | succ n =>
    have hstep : step { s with turns := [processorTurn f s] } = .fault .unsupportedEnvironment :=
      unsupportedEnvironmentNeverStarts _ hv
    simp [processorRun, hstep] at h

/-- Outside a drain at most 3 bytes wait in `buf`: P leaves the drain with no more. -/
theorem processorStep_buf_short {s t : State} (h : processorStep s = .next t)
    (hs : s.phase ≠ .drain → s.buf.length ≤ 3) : t.phase ≠ .drain → t.buf.length ≤ 3 := by
  obtain ⟨hp, _, rfl⟩ | ⟨_, _, _, rfl⟩ | ⟨blk, q, _, _, _, _, rfl⟩ | ⟨_, hb, rfl⟩ | ⟨hp, _, hexec⟩ | ⟨_, rfl⟩ :=
    processorStep_cases h
  · exact fun _ => hs (by simp [hp])
  · exact hs
  · exact fun ht => absurd rfl ht
  · exact fun _ => Nat.le_of_lt_succ hb
  · obtain ⟨_, hphase, _⟩ := assemblerLeavesTheRestAlone _ _ _ hexec
    exact fun ht => absurd (hphase.trans hp) ht
  · exact hs

/-! ### The diagnostic channel sees the bytes in order, whatever the blocks -/

/-- The diagnostic events of a log. -/
def diagEvents (logs : List LogEvent) : List LogEvent := logs.filter fun e => decide (eventCode e = 0)

/-- The other events of a log. -/
def frameEvents (logs : List LogEvent) : List LogEvent := logs.filter fun e => decide (eventCode e ≠ 0)

theorem diagEvents_append (a b : List LogEvent) : diagEvents (a ++ b) = diagEvents a ++ diagEvents b :=
  List.filter_append a b

theorem frameEvents_append (a b : List LogEvent) : frameEvents (a ++ b) = frameEvents a ++ frameEvents b :=
  List.filter_append a b

theorem diagEvents_map_diag (texts : List Text) : diagEvents (texts.map .diag) = texts.map .diag := by
  rw [diagEvents, List.filter_eq_self]
  simp [eventCode]

theorem frameEvents_map_diag (texts : List Text) : frameEvents (texts.map .diag) = [] := by
  rw [frameEvents, List.filter_eq_nil_iff]
  simp [eventCode]

theorem Emission.NoDiag.diagEvents {o : Emission} (h : o.NoDiag) : diagEvents o.logs = [] := by
  rw [Machine.diagEvents, List.filter_eq_nil_iff]
  exact fun ev hev => by simpa using h ev hev

theorem Emission.NoDiag.frameEvents {o : Emission} (h : o.NoDiag) : frameEvents o.logs = o.logs := by
  rw [Machine.frameEvents, List.filter_eq_self]
  exact fun ev hev => by simpa using h ev hev

/-- The line and the diagnostic events once all that waits in the queue has been fed. -/
def diagOutcome (s : State) : Bytes × List LogEvent :=
  let r := lineFeedAll s.cfg s.line s.queue.flatten
  (r.1, diagEvents s.logs ++ r.2.map .diag)

/-- No step of P changes what they will be. -/
theorem processorStep_diagOutcome {s t : State} (h : processorStep s = .next t) : diagOutcome t = diagOutcome s := by
  obtain ⟨_, _, rfl⟩ | ⟨_, _, _, rfl⟩ | ⟨blk, q, _, _, hq, _, rfl⟩ | ⟨_, _, rfl⟩ | ⟨_, _, hexec⟩ | ⟨_, rfl⟩ :=
    processorStep_cases h
  · rfl
  · rfl
  · simp [diagOutcome, diagFeedAll_eq, hq, lineFeedAll_append, diagEvents_append, diagEvents_map_diag]
  · rfl
  · obtain ⟨fsm, acc, o, ho, heff⟩ := exec_decodeWindow_effect hexec
    cases (heff s ⟨rfl, rfl, rfl, rfl, rfl⟩).symm.trans hexec
    simp [diagOutcome, applyEffect, emit, diagEvents_append, ho.diagEvents]
  · rfl

/-! ### The scan of all bytes at once -/

/-- One step of the scan: the operation the window selects, with the answers of its position. -/
def Scans (f : Answers) (v w : State) : Prop :=
  4 ≤ v.buf.length ∧ exec (decodeWindow (peek4 v)) (answered f v) = .next w

theorem scans_rightUnique (f : Answers) : Relator.RightUnique (Scans f) := by
  rintro v w w' ⟨_, h⟩ ⟨_, h'⟩
  cases h.symm.trans h'
  rfl

/-- Below one window the scan is over. -/
theorem not_scans_of_short {f : Answers} {v w : State} (h : v.buf.length ≤ 3) : ¬Scans f v w :=
  fun hs => absurd hs.1 (by omega)

/-- Two scans of one state that are over have come to one state. -/
theorem scans_unique {f : Answers} {v w w' : State} (h : Relation.ReflTransGen (Scans f) v w)
    (h' : Relation.ReflTransGen (Scans f) v w') (hw : w.buf.length ≤ 3) (hw' : w'.buf.length ≤ 3) : w = w' := by
  obtain hto | hto := Relation.ReflTransGen.total_of_right_unique (scans_rightUnique f) h h'
  · obtain rfl | ⟨_, hs, _⟩ := hto.cases_head
    · rfl
    · exact absurd hs (not_scans_of_short hw)
  · obtain rfl | ⟨_, hs, _⟩ := hto.cases_head
    · rfl
    · exact absurd hs (not_scans_of_short hw')

/-- `v` is where the scan is when P's run is at `s`: the same frame registers, position and ports, the events of frames
alone, and the queued bytes already in `buf`. -/
structure Follows (v s : State) : Prop where
  cfg : v.cfg = s.cfg
  fsm : v.fsm = s.fsm
  acc : v.acc = s.acc
  buf : v.buf = s.buf ++ s.queue.flatten
  pos : v.pos = s.pos
  tx : v.tx = s.tx
  txfail : v.txfail = s.txfail
  envs : v.envs = s.envs
  cq : v.cq = s.cq
  logs : v.logs = frameEvents s.logs

/-- One effect on both keeps the scan where the run is, if its bytes were in `buf`. -/
theorem Follows.applyEffect {f : Answers} {v s : State} (h : Follows v s) (fsm : Fsm) (acc : Bytes) {o : Emission}
    (ho : o.NoDiag) {n : Nat} (hn : n ≤ s.buf.length) :
    Follows (applyEffect n fsm acc o (answered f v)) (applyEffect n fsm acc o (answered f s)) where
  cfg := h.cfg
  fsm := rfl
  acc := rfl
  buf := (congrArg (List.drop n) h.buf).trans (List.drop_append_of_le_length hn)
  pos := congrArg (· + n) h.pos
  tx := congrArg (· ++ o.tx) h.tx
  txfail := congrArg (· + o.txfail) h.txfail
  envs := congrArg (· ++ o.envs) h.envs
  cq := congrArg (· ++ o.cq) h.cq
  logs := by
    have hlogs : v.logs ++ o.logs = frameEvents (s.logs ++ o.logs) := by
      rw [frameEvents_append, ho.frameEvents, h.logs]
    exact hlogs

/-- A step of P is a step of the scan, or one that the scan has no part in. -/
theorem Follows.next {f : Answers} {v s t : State} (h : Follows v s) (hs : processorStep (answered f s) = .next t) :
    Follows v t ∨ ∃ w, Scans f v w ∧ Follows w t := by
  obtain ⟨_, _, rfl⟩ | ⟨_, _, _, rfl⟩ | ⟨blk, q, _, _, hq, _, rfl⟩ | ⟨_, _, rfl⟩ | ⟨_, hb, hexec⟩ | ⟨_, rfl⟩ :=
    processorStep_cases hs
  · exact .inl { h with }
  · exact .inl { h with }
  · have hq' : s.queue = blk :: q := hq
    left
    simp only [diagFeedAll_eq]
    exact { h with
      buf := by rw [h.buf, hq']; simp [answered]
      logs := by rw [h.logs, frameEvents_append, frameEvents_map_diag, List.append_nil]; rfl }
  · exact .inl { h with }
  · right
    have hb' : 4 ≤ s.buf.length := hb
    obtain ⟨fsm, acc, o, ho, heff⟩ := exec_decodeWindow_effect hexec
    have hpeek : peek4 v = peek4 (answered f s) := by
      have hlen : 0 + 4 ≤ s.buf.length := by omega
      rw [peek4, h.buf, Wire.le32_append_left _ hlen]
      rfl
    have hsame : SameInputs (answered f s) (answered f v) :=
      ⟨h.cfg, h.fsm, h.acc, congrArg (fun p => (f p).1) h.pos, congrArg (fun p => (f p).2) h.pos⟩
    have hscan := heff (answered f v) hsame
    rw [← hpeek] at hscan
    cases (heff (answered f s) ⟨rfl, rfl, rfl, rfl, rfl⟩).symm.trans hexec
    obtain ⟨_, hle⟩ := decodeWindow_consumes (peek4 v)
    rw [← hpeek]
    exact ⟨_, ⟨by rw [h.buf, List.length_append]; omega, hscan⟩, h.applyEffect fsm acc ho (by omega)⟩
  · exact .inl { h with }

/-- The scan follows a whole run of P alone. -/
theorem Follows.run {f : Answers} {v s t : State} {n : Nat} (hv : s.viable = true) (h : Follows v s)
    (hrun : processorRun f n s = .next t) : ∃ w, Relation.ReflTransGen (Scans f) v w ∧ Follows w t := by
  refine processorRun_keeps (P := fun s => ∃ w, Relation.ReflTransGen (Scans f) v w ∧ Follows w s) ?_ hv
    ⟨v, .refl, h⟩ hrun
  rintro s t ⟨w, hreach, hw⟩ hs
  obtain hw' | ⟨w', hscan, hw'⟩ := hw.next hs
  · exact ⟨w, hreach, hw'⟩
  · exact ⟨w', hreach.tail hscan, hw'⟩

end Sys2Proof.Machine

namespace Sys2Proof

open Sys2Proof.Machine

/-- Settles O58: one scan follows both runs and ends in one state, and the diagnostic channel is fed the same bytes. -/
theorem blockBoundariesDoNotMatter : Obligations.BlockBoundariesDoNotMatter := by
  intro s t t' f q q' n n' hp hstop hq hrun htp htq hrun' htp' htq' hshort
  cases hv : s.viable with
  | false =>
    have ht := processorRun_not_viable (s := { s with queue := q }) hv hrun
    have ht' := processorRun_not_viable (s := { s with queue := q' }) hv hrun'
    subst ht ht'
    exact ⟨rfl, rfl, rfl, rfl, rfl, rfl, rfl, rfl, rfl, rfl, rfl⟩
  | true =>
    have hfollow (q₀ : List Bytes) (hq₀ : q.flatten = q₀.flatten) :
        Follows { s with buf := s.buf ++ q.flatten, logs := frameEvents s.logs } { s with queue := q₀ } :=
      ⟨rfl, rfl, rfl, congrArg (s.buf ++ ·) hq₀, rfl, rfl, rfl, rfl, rfl, rfl⟩
    have hend {q₀ : List Bytes} {m : Nat} {u : State} (hr : processorRun f m { s with queue := q₀ } = .next u)
        (hup : u.phase = .poll) : u.buf.length ≤ 3 :=
      processorRun_keeps (P := fun u => u.phase ≠ .drain → u.buf.length ≤ 3) (s := { s with queue := q₀ })
        (fun u _ hu h => processorStep_buf_short (s := answered f u) h hu) hv (fun _ => hshort) hr (by simp [hup])
    have hdiag {q₀ : List Bytes} {m : Nat} {u : State} (hr : processorRun f m { s with queue := q₀ } = .next u) :
        diagOutcome u = diagOutcome { s with queue := q₀ } :=
      processorRun_keeps (P := fun u => diagOutcome u = diagOutcome { s with queue := q₀ })
        (s := { s with queue := q₀ })
        (fun _ _ hs h => (processorStep_diagOutcome h).trans hs) hv rfl hr
    obtain ⟨w, hreach, hw⟩ := Follows.run (s := { s with queue := q }) hv (hfollow q rfl) hrun
    obtain ⟨w', hreach', hw'⟩ := Follows.run (s := { s with queue := q' }) hv (hfollow q' hq) hrun'
    have hwbuf : w.buf = t.buf := by simp [hw.buf, htq]
    have hwbuf' : w'.buf = t'.buf := by simp [hw'.buf, htq']
    obtain rfl := scans_unique hreach hreach' (hwbuf ▸ hend hrun htp) (hwbuf' ▸ hend hrun' htp')
    have houtcome : diagOutcome t' = diagOutcome t := by
      rw [hdiag hrun, hdiag hrun']
      simp only [diagOutcome, hq]
    simp only [diagOutcome, htq, htq', List.flatten_nil, lineFeedAll, List.map_nil, List.append_nil,
      Prod.mk.injEq] at houtcome
    obtain ⟨hline, hevents⟩ := houtcome
    exact ⟨hw'.fsm.symm.trans hw.fsm, hw'.acc.symm.trans hw.acc, hwbuf'.symm.trans hwbuf, hline,
      hw'.pos.symm.trans hw.pos, hw'.envs.symm.trans hw.envs, hw'.tx.symm.trans hw.tx,
      hw'.txfail.symm.trans hw.txfail, hw'.cq.symm.trans hw.cq, hevents, hw'.logs.symm.trans hw.logs⟩

end Sys2Proof
end
